-- ==== Sys2Proof/Word.lean ====
section
/-! DEFINITION. The word types of the machine (10_state.md R20, 20_memory.md R47), the four general registers by name
(R20) and a value for each of them at once. -/

namespace Sys2Proof

/-- One byte of the program text (20_memory.md R47), and one character of a string (00_scope.md R12). -/
abbrev Byte := BitVec 8

/-- The contents of a general register: 32 bits (10_state.md R20). Bit 0 is the least significant (00_scope.md R6). -/
abbrev Word := BitVec 32

/-- One flag bit (10_state.md R24). -/
abbrev Bit := BitVec 1

/-- The four general registers (10_state.md R20). -/
inductive Reg
  | eax | ebx | ecx | edx
deriving DecidableEq, Repr

/-- A 32-bit value for each of EAX, EBX, ECX and EDX: what a leaf returns (40_cpuid_invocation.md R88). -/
structure Quad where
  eax : Word
  ebx : Word
  ecx : Word
  edx : Word
deriving DecidableEq, Repr

end Sys2Proof
end

