-- ==== Sys2Proof/Syntax.lean ====
section
/-! DEFINITION. The instruction set: exactly CPUID (00_scope.md R3, 30_encoding.md R63). -/

namespace Sys2Proof

/-- One constructor for the one row of spec/opcode_table.json. CPUID has no explicit operand: the leaf is the value of
EAX when it executes (30_encoding.md R62). -/
inductive Instr
  | cpuid
deriving DecidableEq, Repr

end Sys2Proof
end

