-- ==== Sys2Proof/Decode.lean ====
section
/-! DEFINITION. Decoding, total on any bytes (30_encoding.md R64), and the encoder (R60). -/

namespace Sys2Proof

/-- Opcode byte 1, at the lower address (30_encoding.md R60, 20_memory.md R42; log 11). -/
def opcodeByte1 : Byte := 0x0F

/-- Opcode byte 2, at the next address (30_encoding.md R60). -/
def opcodeByte2 : Byte := 0xA2

/-- What decoding gives. -/
inductive Decoded
  /-- An instruction, and the bytes after it. -/
  | instr (i : Instr) (rest : List Byte)
  /-- The spec gives these two bytes no meaning: NotInScope (30_encoding.md R64). -/
  | notInScope (b0 b1 : Byte)
  /-- Fewer than the two bytes that R64 reads. -/
  | tooShort
deriving DecidableEq, Repr

/-- The decode procedure of 30_encoding.md R64, on the bytes from `ip` on, lowest address first. -/
def decode : List Byte → Decoded
  | b0 :: b1 :: rest => if b0 = opcodeByte1 ∧ b1 = opcodeByte2 then .instr .cpuid rest else .notInScope b0 b1
  | _ => .tooShort

/-- The bytes of an instruction, lowest address first (30_encoding.md R60). -/
def encode : Instr → List Byte
  | .cpuid => [opcodeByte1, opcodeByte2]

/-- The length of an instruction in bytes (30_encoding.md R61). -/
def Instr.length : Instr → Nat
  | .cpuid => 2

/-- The two bytes of a word numbered as spec/opcode_table.json numbers it: the byte at the lower address in bits 7:0
(30_encoding.md R63). Bits from `nbits` up are 0. -/
def tableBytes (nbits w : Nat) : List Byte :=
  [BitVec.ofNat 8 (w % 2 ^ nbits), BitVec.ofNat 8 (w % 2 ^ nbits / 256)]

/-- The instruction the decoder reads from a word of the opcode table. -/
def decodeTableWord (nbits w : Nat) : Option Instr :=
  match decode (tableBytes nbits w) with
  | .instr i _ => some i
  | .notInScope _ _ => none
  | .tooShort => none

end Sys2Proof
end

