-- ==== Sys2Proof/Config.lean ====
section
/-! DEFINITION. The configuration record CFG (00_scope.md R4, R5): everything that differs from one processor to another.
It is a field of State that no step changes (log 1), so a statement about every state is a statement about every
configuration. The bytes of CODE stand in State's memory (log 14). The two free values of the model stand here too. -/

namespace Sys2Proof

/-- Which registers leaf 3 fills (41_cpuid_basic_leaves.md R122). -/
inductive PsnLayout
  | none | pentium3 | efficeon | crusoe
deriving DecidableEq, Repr

/-- Which processor a configuration stands for (00_scope.md R2), as far as the rules on the serial number ask
(41_cpuid_basic_leaves.md R123). -/
inductive Product
  | pentium3 | efficeon | crusoe | other
deriving DecidableEq, Repr

/-- The configuration record CFG of 00_scope.md R5, one field for each row but CODE, and the model's own `product`
(log 27). -/
structure Config where
  /-- HAS_EFLAGS: an 80386 or later, so EFLAGS exists (R81). -/
  hasEflags : Bool
  /-- HAS_CPUID: the processor implements CPUID (R80). -/
  hasCpuid : Bool
  /-- ID_STUCK: what EFLAGS bit 21 reads where it cannot be changed (R25). -/
  idStuck : Bit
  /-- IP_WIDTH: the width of the instruction pointer (R23). -/
  ipWidth : Nat
  /-- MAX_BASIC: the highest basic leaf (R100). -/
  maxBasic : Word
  /-- VENDOR: the twelve characters of the vendor string in reading order (R101). -/
  vendor : Vector Byte 12
  /-- STEPPING, signature bits 3:0 (R104). -/
  stepping : BitVec 4
  /-- MODEL, signature bits 7:4 (R104). -/
  model : BitVec 4
  /-- FAMILY, signature bits 11:8 (R104). -/
  family : BitVec 4
  /-- PTYPE, signature bits 13:12 (R104). -/
  ptype : BitVec 2
  /-- EXT_MODEL, signature bits 19:16 (R104). -/
  extModel : BitVec 4
  /-- EXT_FAMILY, signature bits 27:20 (R104). -/
  extFamily : BitVec 8
  /-- SIG_RSVD: bits 3:0 stand in signature bits 31:28, bits 5:4 in signature bits 15:14 (R104, R105). -/
  sigRsvd : BitVec 6
  /-- LEAF1_EBX: additional feature information, an opaque word (R107). -/
  leaf1Ebx : Word
  /-- FEAT1_EDX: the feature flags of leaf 1 in EDX (R108). -/
  feat1Edx : Word
  /-- FEAT1_ECX: the feature flags of leaf 1 in ECX (R109). -/
  feat1Ecx : Word
  /-- LEAF2: the four opaque words of leaf 2 (R120). -/
  leaf2 : Quad
  /-- PSN_LAYOUT: which registers leaf 3 fills (R122). -/
  psnLayout : PsnLayout
  /-- PSN_ENABLED: the BIOS setting for the serial number (R124). -/
  psnEnabled : Bool
  /-- PSN: the serial number; the crusoe layout uses its low 32 bits (R122). -/
  psn : BitVec 64
  /-- The processor this configuration stands for (R2, R123; log 27). No step reads it. -/
  product : Product
  /-- HAS_EXT: the processor has extended leaves (R140). -/
  hasExt : Bool
  /-- MAX_EXT: the highest extended leaf (R141). -/
  maxExt : Word
  /-- EXTFEAT_EDX: the feature flags of leaf 80000001h in EDX (R143). -/
  extFeatEdx : Word
  /-- EXTFEAT_ECX: the feature flags of leaf 80000001h in ECX (R144). -/
  extFeatEcx : Word
  /-- BRAND: the 48 bytes of the brand string in reading order (R150). -/
  brand : Vector Byte 48
  /-- L2INFO: the opaque word of leaf 80000006h (R154). -/
  l2Info : Word
  /-- ADDRSIZES: the opaque word of leaf 80000008h (R156). -/
  addrSizes : Word
  /-- KEEPS_EBX_ECX: the older-processor behaviour of note 1 (R196). -/
  keepsEbxEcx : Bool
  /-- HYPERVISOR: the instruction runs under a hypervisor (R113). -/
  hypervisor : Bool
  /-- MODE64: the CPU is operating in 64-bit mode (R146). -/
  mode64 : Bool
  /-- RESET_DX: DX right after reset on an 80386 or later (R191). -/
  resetDx : BitVec 16
  /-- CODE_BASE: where the program text stands (R45). -/
  codeBase : Nat
deriving DecidableEq, Repr

/-- How many addresses the instruction address space has: 2^IP_WIDTH (20_memory.md R47). -/
def Config.space (c : Config) : Nat := 2 ^ c.ipWidth

/-- The vendor string "GenuineIntel" (41_cpuid_basic_leaves.md R102). -/
def vendorGenuineIntel : Vector Byte 12 :=
  #v[0x47, 0x65, 0x6E, 0x75, 0x69, 0x6E, 0x65, 0x49, 0x6E, 0x74, 0x65, 0x6C]

/-- The vendor string "AuthenticAMD" (41_cpuid_basic_leaves.md R115; its codes are those of 95_test_vectors.md V2). -/
def vendorAuthenticAMD : Vector Byte 12 :=
  #v[0x41, 0x75, 0x74, 0x68, 0x65, 0x6E, 0x74, 0x69, 0x63, 0x41, 0x4D, 0x44]

/-- The eighteen bits of leaf 80000001h EDX that duplicate leaf 1 EDX on AMD CPUs (42_cpuid_extended_leaves.md R145). -/
def dupMask : Word := 0x0183F3FF

/-- `any32()` of 00_scope.md R11: the n-th unknown word. It has no value that Lean can know (log 15). -/
opaque Config.freeWord : Nat → Word

/-- The open choice of 70_reset_and_hazards.md R196: whether the n-th register that may be kept is kept. It has no
value that Lean can know (log 16). -/
opaque Config.freeKeep : Nat → Bool

/-- CFG-A of 95_test_vectors.md section 2.1, with zero in every field that the table leaves out. DESIGN CHOICE (log 2):
the configuration that State.reset holds. -/
def Config.cfgA : Config where
  hasEflags := true
  hasCpuid := true
  idStuck := 0
  ipWidth := 32
  maxBasic := 0x00000001
  vendor := vendorGenuineIntel
  stepping := 3
  model := 3
  family := 6
  ptype := 0
  extModel := 0
  extFamily := 0
  sigRsvd := 0
  leaf1Ebx := 0
  feat1Edx := 0x00808131
  feat1Ecx := 0
  leaf2 := ⟨0, 0, 0, 0⟩
  psnLayout := .none
  psnEnabled := false
  psn := 0
  product := .other
  hasExt := true
  maxExt := 0x80000004
  extFeatEdx := 0
  extFeatEcx := 0
  brand := #v[0x45, 0x78, 0x61, 0x6D, 0x70, 0x6C, 0x65, 0x20, 0x43, 0x50, 0x55, 0x20,
              0x4D, 0x6F, 0x64, 0x65, 0x6C, 0x20, 0x41, 0, 0, 0, 0, 0,
              0, 0, 0, 0, 0, 0, 0, 0, 0, 0, 0, 0, 0, 0, 0, 0, 0, 0, 0, 0, 0, 0, 0, 0]
  l2Info := 0
  addrSizes := 0
  keepsEbxEcx := false
  hypervisor := false
  mode64 := false
  resetDx := 0
  codeBase := 0

end Sys2Proof
end

