-- ==== Sys2Proof/Machine/State.lean ====
section
/-! DEFINITION. The state of the machine (00_scope.md R14, 10_state.md R20 to R26), the reasons a step can stop, and the
state right after reset (10_state.md R31, 70_reset_and_hazards.md R191). -/

namespace Sys2Proof.Machine

/-- What a general register holds: a 32-bit value, or "no value", which 70_reset_and_hazards.md R192 lets a launch state
give it (log 7). State.reset gives every register a value. -/
inductive RegValue
  | noValue
  | held (w : Word)
deriving DecidableEq, Repr

/-- The four general registers (10_state.md R20). -/
structure Regs where
  eax : RegValue
  ebx : RegValue
  ecx : RegValue
  edx : RegValue
deriving DecidableEq, Repr

/-- The name of a fault with its information, as `raise` records it (10_state.md R26, 60_exceptions.md R173). -/
inductive FaultMark
  /-- CPUID on a processor without it; the `ip` of the instruction (60_exceptions.md R170). -/
  | undefinedOpcode (ip : Nat)
  /-- A register without a value was read; its name (60_exceptions.md R172). -/
  | unwrittenRegister (r : Reg)
deriving DecidableEq, Repr

/-- The address space: (address, byte) cells, addresses strictly rising. An address that is not listed is unmapped
(20_memory.md R46; log 14). -/
abbrev Memory := List Host.Cell

/-- The state (00_scope.md R14), with the configuration it runs under (log 1), the program text (20_memory.md R45) and
the model's own counter of free values (log 15). -/
structure State where
  /-- CFG (00_scope.md R5). No step changes it (R4). -/
  cfg : Config
  /-- EAX, EBX, ECX, EDX (10_state.md R20). -/
  regs : Regs
  /-- The instruction pointer (10_state.md R23). -/
  ip : Nat
  /-- Bit 21 of EFLAGS (10_state.md R24); read and written through the primitives of R25 only. -/
  eflags21 : Bit
  /-- The fault mark (10_state.md R26). -/
  fault : Option FaultMark
  /-- The bytes of the program text (20_memory.md R45). No step changes them (R53). -/
  mem : Memory
  /-- The model's own: how many free words have been drawn (00_scope.md R11). -/
  draws : Nat
deriving DecidableEq, Repr

/-- Why a step stops with a fault. -/
inductive Fault
  /-- Raised by `step` in a state whose fault mark is set: it has no further step (10_state.md R26, 60_exceptions.md
  R171). Safe: the model stops where a processor would run a handler. -/
  | halted (m : FaultMark)
  /-- Raised by `step`: a fetch at an address outside the program text, the spec's stuck state (20_memory.md R45).
  Safe: nothing is said of bytes the model was not given. -/
  | fetchOutsideText (address : Nat)
deriving DecidableEq, Repr

/-- Why the model gives no step or no answer. -/
inductive Refusal
  /-- Raised by `exec` for an instruction that has no meaning yet. Safe. No arm uses it. -/
  | notModelled (mnemonic : String)
  /-- Raised by `step`: the two bytes at `ip` are not `0F A2` (30_encoding.md R64). Safe: no claim about them. -/
  | notInScope (ip : Nat) (b0 b1 : Byte)
  /-- Raised by `step` when `ip` is the end of the program text: the run is over (00_scope.md R19). Safe. -/
  | endOfRun
  /-- Raised by the flag primitives, never by `step`: the processor has no EFLAGS (10_state.md R25). Safe. -/
  | noEflags
deriving DecidableEq, Repr

/-- What EFLAGS bit 21 holds in a fresh state: the given bit on a processor with CPUID, ID_STUCK on one with EFLAGS and
without CPUID; without EFLAGS the bit is absent and is held as 0 (70_reset_and_hazards.md R192; log 6). -/
def freshFlag21 (c : Config) (b : Bit) : Bit :=
  if c.hasEflags then (if c.hasCpuid then b else c.idStuck) else 0

/-- The state right after reset of a processor with configuration `c`. DX holds RESET_DX on an 80386 or later
(70_reset_and_hazards.md R191) and the fault mark is none (10_state.md R26). The other values are the model's choice: log 3
(registers), log 4 (DX as the low half of EDX), log 5 (`ip`), log 6 (the flag), log 15 (`draws`). -/
def State.resetWith (c : Config) : State where
  cfg := c
  regs := {
    eax := .held 0
    ebx := .held 0
    ecx := .held 0
    edx := .held (if c.hasEflags then c.resetDx.setWidth 32 else 0) }
  ip := c.codeBase
  eflags21 := freshFlag21 c 0
  fault := none
  mem := []
  draws := 0

/-- The machine right after reset, with the configuration CFG-A (log 2) and no program text. -/
def State.reset : State := State.resetWith Config.cfgA

end Sys2Proof.Machine
end

