-- ==== Sys2Proof/Machine/Ops.lean ====
section
/-! DEFINITION. The operations over memory and registers, `raise` (60_exceptions.md R171), instruction fetch (20_memory.md
R45), placing a program text, and the launch state (70_reset_and_hazards.md R192). There is no return from a fault: the
spec has none (60_exceptions.md R177). -/

namespace Sys2Proof.Machine

/-! ## Memory -/

/-- What an unlisted address reads as: nothing, for it is unmapped (20_memory.md R46; log 14). -/
def Memory.unlisted : Option Byte := none

/-- The byte at an address. -/
def Memory.read : Memory → Nat → Option Byte
  | [], _ => Memory.unlisted
  | c :: rest, a => if c.1 = a then some c.2 else Memory.read rest a

/-- Memory with one byte set; the cells stay in rising order. -/
def Memory.write : Memory → Nat → Byte → Memory
  | [], a, b => [(a, b)]
  | c :: rest, a, b =>
    if a < c.1 then (a, b) :: c :: rest
    else if a = c.1 then (a, b) :: rest
    else c :: Memory.write rest a b

/-- The canonical form: addresses strictly rising. Since an unlisted address reads as nothing, no cell equals what an
unlisted address reads as. -/
abbrev Memory.wf (m : Memory) : Prop := m.Pairwise (fun c d => c.1 < d.1)

/-- Bytes placed from address `a` on, in an address space of `space` addresses (20_memory.md R45). -/
def Memory.place (space : Nat) : Memory → Nat → List Byte → Memory
  | m, _, [] => m
  | m, a, b :: bs => Memory.place space (m.write (a % space) b) (a + 1) bs

/-! ## One update for each field of State -/

/-- The state with other general registers. -/
def State.setRegs (s : State) (r : Regs) : State := { s with regs := r }

/-- The state with another `ip`: `ip <- target` (00_scope.md R10). -/
def State.setIp (s : State) (target : Nat) : State := { s with ip := target }

/-- The state with another EFLAGS bit 21. -/
def State.setFlag21 (s : State) (b : Bit) : State := { s with eflags21 := b }

/-- The state with a fault mark. -/
def State.setFault (s : State) (m : FaultMark) : State := { s with fault := some m }

/-- The state with another program text: its base and its bytes. -/
def State.setText (s : State) (base : Nat) (m : Memory) : State :=
  { s with cfg := { s.cfg with codeBase := base }, mem := m }

/-- The state with another count of free values drawn. -/
def State.setDraws (s : State) (n : Nat) : State := { s with draws := n }

/-! ## Registers -/

/-- What register `r` holds. -/
def Regs.get (g : Regs) : Reg → RegValue
  | .eax => g.eax
  | .ebx => g.ebx
  | .ecx => g.ecx
  | .edx => g.edx

/-- The word of a quad that stands for register `r`. -/
def quadGet (q : Quad) : Reg → Word
  | .eax => q.eax
  | .ebx => q.ebx
  | .ecx => q.ecx
  | .edx => q.edx

/-- `x[r]` (00_scope.md R10). -/
def State.reg (s : State) (r : Reg) : RegValue := s.regs.get r

/-- DX, the low 16 bits of EDX (10_state.md R21; log 4); none when EDX holds no value. -/
def State.dx (s : State) : Option (BitVec 16) :=
  match s.regs.edx with
  | .held w => some (w.setWidth 16)
  | .noValue => none

/-! ## Faults -/

/-- `raise F(info)`: sets the fault mark and writes nothing else (60_exceptions.md R171). -/
def raise (m : FaultMark) (s : State) : State := s.setFault m

/-! ## The program text and instruction fetch -/

/-- An address taken modulo 2^IP_WIDTH (10_state.md R23, 20_memory.md R45). -/
def State.addr (s : State) (a : Nat) : Nat := a % s.cfg.space

/-- `MemRead(a, 1)` (20_memory.md R45): none where the read is not admitted. -/
def State.memRead (s : State) (a : Nat) : Option Byte := Memory.read s.mem (s.addr a)

/-- length(CFG.CODE): the text is the one region of the map (20_memory.md R46), so its length is the number of its
cells (log 14). -/
def State.textLength (s : State) : Nat := List.length s.mem

/-- The address just past the program text, where the run ends (00_scope.md R19). -/
def State.textEnd (s : State) : Nat := s.addr (s.cfg.codeBase + s.textLength)

/-- Whether `ip` is the end of the program text (00_scope.md R19, 20_memory.md R45). -/
def State.atEnd (s : State) : Bool := s.addr s.ip == s.textEnd

/-- What fetching an instruction gives. -/
inductive Fetched
  /-- The two bytes of 30_encoding.md R64. -/
  | bytes (b0 b1 : Byte)
  /-- The first read that is not admitted, and its address (20_memory.md R45). -/
  | outside (address : Nat)
deriving DecidableEq, Repr

/-- The two reads of 30_encoding.md R64, both made before anything is compared (log 9). -/
def fetch (s : State) : Fetched :=
  match s.memRead s.ip with
  | none => .outside (s.addr s.ip)
  | some b0 =>
    match s.memRead (s.ip + 1) with
    | none => .outside (s.addr (s.ip + 1))
    | some b1 => .bytes b0 b1

/-- The state with the program text `code` standing at `base` (20_memory.md R45; log 13 says when a text is placed). -/
def State.loadText (s : State) (base : Nat) (code : List Byte) : State :=
  s.setText (s.addr base) (Memory.place s.cfg.space [] base code)

/-- The launch state of 70_reset_and_hazards.md R192: the host chooses the configuration, the text, the registers, the
flag, and (the model's own, log 15) where the free values start. -/
def State.launch (c : Config) (code : List Byte) (r : Regs) (flag : Bit) (draws : Nat) : State where
  cfg := c
  regs := r
  ip := c.codeBase
  eflags21 := freshFlag21 c flag
  fault := none
  mem := Memory.place c.space [] c.codeBase code
  draws := draws

/-! ## Free values -/

/-- Four draws of `any32()` (00_scope.md R11), from the `n`-th on. -/
def freshQuad (n : Nat) : Quad :=
  ⟨Config.freeWord n, Config.freeWord (n + 1), Config.freeWord (n + 2), Config.freeWord (n + 3)⟩

/-- The two independent choices of 70_reset_and_hazards.md R196: whether EBX keeps its old value, and whether ECX does. -/
structure Keep where
  ebx : Bool
  ecx : Bool
deriving DecidableEq, Repr

/-- Two choices that nothing determines, from the `n`-th on. -/
def freshKeep (n : Nat) : Keep := ⟨Config.freeKeep n, Config.freeKeep (n + 1)⟩

end Sys2Proof.Machine
end

