-- ==== Sys2Proof/Machine/Operands.lean ====
section
/-! DEFINITION. The forms in which CPUID's results stand in registers: characters packed into a word (00_scope.md R12),
a value in a register pair (R8). The one operand, EAX, is read whole (30_encoding.md R62). -/

namespace Sys2Proof.Machine

/-- Four bytes in a word, `b0` in bits 7:0 (00_scope.md R10, R12). -/
def pack4 (b0 b1 b2 b3 : Byte) : Word := b3 ++ b2 ++ b1 ++ b0

/-- The four bytes of a word, the one in bits 7:0 first (20_memory.md R40). -/
def unpack4 (w : Word) : List Byte :=
  [w.extractLsb' 0 8, w.extractLsb' 8 8, w.extractLsb' 16 8, w.extractLsb' 24 8]

/-- The 64-bit value of the pair `hi:lo` (00_scope.md R8; log 24). -/
def pairValue (hi lo : Word) : BitVec 64 := hi ++ lo

/-- What a destination holds that may be left unmodified: its old contents, or the new value (70_reset_and_hazards.md R196). -/
def keepOrWrite (keep : Bool) (old : RegValue) (v : Word) : RegValue := if keep then old else .held v

end Sys2Proof.Machine
end

