-- ==== Sys2Proof/Machine/Leaves.lean ====
section
/-! DEFINITION. The leaves: which are supported (40_cpuid_invocation.md R87), what each returns
(41_cpuid_basic_leaves.md, 42_cpuid_extended_leaves.md), and the dispatch (40_cpuid_invocation.md R88). The argument `any`
of a leaf function is its four draws of `any32()`, one for each register (00_scope.md R11): a leaf function overwrites the
registers its rule names and leaves the draw in the others (R89). -/

namespace Sys2Proof.Machine

/-- Supported(leaf) (40_cpuid_invocation.md R87): unsigned comparison within the leaf's own class. -/
def supported (c : Config) (leaf : Word) : Bool :=
  (!leaf.getLsbD 31 && decide (leaf ≤ c.maxBasic)) || (leaf.getLsbD 31 && c.hasExt && decide (leaf ≤ c.maxExt))

/-- Leaf 0: the highest basic leaf and the vendor string in the order EBX, EDX, ECX (41_cpuid_basic_leaves.md R103). -/
def leaf0 (c : Config) : Quad where
  eax := c.maxBasic
  ebx := pack4 c.vendor[0] c.vendor[1] c.vendor[2] c.vendor[3]
  ecx := pack4 c.vendor[8] c.vendor[9] c.vendor[10] c.vendor[11]
  edx := pack4 c.vendor[4] c.vendor[5] c.vendor[6] c.vendor[7]

/-- Signature() (41_cpuid_basic_leaves.md R104). -/
def signature (c : Config) : Word :=
  c.sigRsvd.extractLsb' 0 4 ++ c.extFamily ++ c.extModel ++ c.sigRsvd.extractLsb' 4 2 ++ c.ptype ++ c.family ++ c.model ++
    c.stepping

/-- Leaf 1: the signature and the feature words (41_cpuid_basic_leaves.md R110). -/
def leaf1 (c : Config) : Quad where
  eax := signature c
  ebx := c.leaf1Ebx
  ecx := c.feat1Ecx
  edx := c.feat1Edx

/-- Leaf 2: the four opaque descriptor words (41_cpuid_basic_leaves.md R120). -/
def leaf2 (c : Config) : Quad := c.leaf2

/-- Leaf 3: the serial number in the registers of its layout, when the BIOS setting is on (41_cpuid_basic_leaves.md R121). -/
def leaf3 (c : Config) (any : Quad) : Quad :=
  if c.psnEnabled then
    match c.psnLayout with
    | .pentium3 => { any with ecx := c.psn.extractLsb' 0 32, edx := c.psn.extractLsb' 32 32 }
    | .efficeon => { any with eax := c.psn.extractLsb' 0 32, ebx := c.psn.extractLsb' 32 32 }
    | .crusoe => { any with ebx := c.psn.extractLsb' 0 32 }
    | .none => any
  else any

/-- Leaf 80000000h (42_cpuid_extended_leaves.md R141). -/
def leafExt0 (c : Config) (any : Quad) : Quad := { any with eax := c.maxExt }

/-- Leaf 80000001h (42_cpuid_extended_leaves.md R142). -/
def leafExt1 (c : Config) (any : Quad) : Quad := { any with ecx := c.extFeatEcx, edx := c.extFeatEdx }

/-- Four characters of the brand string, from character `4 * i` on (42_cpuid_extended_leaves.md R152). -/
def brandWord (c : Config) (i : Fin 12) : Word :=
  pack4 (c.brand[4 * i.val]'(by omega)) (c.brand[4 * i.val + 1]'(by omega)) (c.brand[4 * i.val + 2]'(by omega))
    (c.brand[4 * i.val + 3]'(by omega))

/-- Leaf 80000002h + j: sixteen characters of the brand string, from character `16 * j` on, in the order EAX, EBX, ECX, EDX
(42_cpuid_extended_leaves.md R152). -/
def leafBrand (c : Config) (j : Fin 3) : Quad where
  eax := brandWord c ⟨4 * j.val, by omega⟩
  ebx := brandWord c ⟨4 * j.val + 1, by omega⟩
  ecx := brandWord c ⟨4 * j.val + 2, by omega⟩
  edx := brandWord c ⟨4 * j.val + 3, by omega⟩

/-- Leaf 80000006h (42_cpuid_extended_leaves.md R154). -/
def leafExt6 (c : Config) (any : Quad) : Quad := { any with ecx := c.l2Info }

/-- Leaf 80000008h (42_cpuid_extended_leaves.md R156). -/
def leafExt8 (c : Config) (any : Quad) : Quad := { any with eax := c.addrSizes }

/-- Unsupported() (40_cpuid_invocation.md R90): four draws. -/
def leafUnsupported (any : Quad) : Quad := any

/-- Undocumented(): a supported leaf the source does not describe (40_cpuid_invocation.md R91): four draws. -/
def leafUndocumented (any : Quad) : Quad := any

/-- Reserved(): leaves 80000005h and 80000007h (42_cpuid_extended_leaves.md R153, R155): four draws. -/
def leafReserved (any : Quad) : Quad := any

/-- Which registers the rule of a leaf names, so that they hold no draw: none for an unsupported, undocumented or reserved
leaf (40_cpuid_invocation.md R88 to R91). -/
def leafNames (c : Config) (leaf : Word) : Reg → Bool := fun r =>
  supported c leaf &&
  if leaf = 0x00000003 then
    c.psnEnabled && (match c.psnLayout with
      | .pentium3 => r == .ecx || r == .edx
      | .efficeon => r == .eax || r == .ebx
      | .crusoe => r == .ebx
      | .none => false)
  else if leaf = 0x80000000 ∨ leaf = 0x80000008 then r == .eax
  else if leaf = 0x80000001 then r == .ecx || r == .edx
  else if leaf = 0x80000006 then r == .ecx
  else leaf ≤ 0x00000002 ∨ leaf = 0x80000002 ∨ leaf = 0x80000003 ∨ leaf = 0x80000004

/-- LeafValue(leaf) (40_cpuid_invocation.md R88). -/
def leafValue (c : Config) (leaf : Word) (any : Quad) : Quad :=
  if supported c leaf = false then leafUnsupported any
  else if leaf = 0x00000000 then leaf0 c
  else if leaf = 0x00000001 then leaf1 c
  else if leaf = 0x00000002 then leaf2 c
  else if leaf = 0x00000003 then leaf3 c any
  else if leaf = 0x80000000 then leafExt0 c any
  else if leaf = 0x80000001 then leafExt1 c any
  else if leaf = 0x80000002 then leafBrand c 0
  else if leaf = 0x80000003 then leafBrand c 1
  else if leaf = 0x80000004 then leafBrand c 2
  else if leaf = 0x80000005 then leafReserved any
  else if leaf = 0x80000006 then leafExt6 c any
  else if leaf = 0x80000007 then leafReserved any
  else if leaf = 0x80000008 then leafExt8 c any
  else leafUndocumented any

end Sys2Proof.Machine
end

