-- ==== Sys2Proof/Machine/Cpuid.lean ====
section
/-! DEFINITION. The meaning of CPUID (40_cpuid_invocation.md R86). -/

namespace Sys2Proof.Machine

/-- What CPUID writes once the leaf is read: the four registers together, computed from the state before it, then
`ip <- (ip + 2) mod 2^IP_WIDTH` (40_cpuid_invocation.md R86, R95). No flag is written (R94; log 19). Only on the processors
of note 1 and for a leaf above 0 may EBX and ECX keep what they held (70_reset_and_hazards.md R196). -/
def cpuidComplete (any : Quad) (keep : Keep) (leaf : Word) (s : State) : State :=
  let v := leafValue s.cfg leaf any
  let mayKeep := s.cfg.keepsEbxEcx && decide (0 < leaf)
  let results : Regs := {
    eax := .held v.eax
    ebx := keepOrWrite (mayKeep && keep.ebx) s.regs.ebx v.ebx
    ecx := keepOrWrite (mayKeep && keep.ecx) s.regs.ecx v.ecx
    edx := .held v.edx }
  ((s.setRegs results).setIp (s.addr (s.ip + Instr.length .cpuid))).setDraws (s.draws + 4)

/-- CPUID for given draws of `any32()` and given choices of 70_reset_and_hazards.md R196 (40_cpuid_invocation.md R86). The
processor without CPUID is tested before the operand is read (60_exceptions.md R175). -/
def cpuidWith (any : Quad) (keep : Keep) (s : State) : State :=
  if s.cfg.hasCpuid = false then raise (.undefinedOpcode s.ip) s
  else
    match s.regs.eax with
    | .noValue => raise (.unwrittenRegister .eax) s
    | .held leaf => cpuidComplete any keep leaf s

/-- CPUID (40_cpuid_invocation.md R86), with fresh free values (log 15, log 16). -/
def execCpuid (s : State) : Host.Outcome State Fault Refusal :=
  .next (cpuidWith (freshQuad s.draws) (freshKeep s.draws) s)

end Sys2Proof.Machine
end

