-- ==== Sys2Proof/Machine/Step.lean ====
section
/-! DEFINITION. One step of the machine, and the placing of one instruction where the next step fetches. -/

namespace Sys2Proof.Machine

/-- One step. A marked state has none (10_state.md R26); at the end of the text the run is over (00_scope.md R19); a read
outside the text is the stuck state of 20_memory.md R45; bytes other than `0F A2` are refused (30_encoding.md R64); an
instruction runs. -/
def step (s : State) : Host.Outcome State Fault Refusal :=
  match s.fault with
  | some m => .fault (.halted m)
  | none =>
    if s.atEnd then .refused .endOfRun
    else
      match fetch s with
      | .outside a => .fault (.fetchOutsideText a)
      | .bytes b0 b1 =>
        match decode [b0, b1] with
        | .instr i _ => exec i s
        | .notInScope c0 c1 => .refused (.notInScope s.ip c0 c1)
        | .tooShort => .refused (.notInScope s.ip b0 b1)

/-- The state whose program text is the two bytes of the table word, standing at `ip` (log 13): the text is loaded from
outside the machine, so the base, the length and the bytes are all set. -/
def State.withFetchWord (s : State) (nbits w : Nat) : State := s.loadText s.ip (tableBytes nbits w)

end Sys2Proof.Machine
end

