-- ==== Sys2Proof/Machine/Flags.lean ====
section
/-! DEFINITION. The one flag, EFLAGS bit 21: the two environment primitives (10_state.md R25) and the detection procedure
(40_cpuid_invocation.md R84). CPUID itself computes no flag (R94). -/

namespace Sys2Proof.Machine

/-- ReadFlag21() (10_state.md R25). Without EFLAGS the call is refused. -/
def readFlag21 (s : State) : Except Refusal Bit :=
  if s.cfg.hasEflags then .ok s.eflags21 else .error .noEflags

/-- WriteFlag21(b) (10_state.md R25): the bit is changeable exactly on a processor with CPUID (log 21). Without EFLAGS the
call is refused. -/
def writeFlag21 (b : Bit) (s : State) : Except Refusal State :=
  if s.cfg.hasEflags then .ok (s.setFlag21 (if s.cfg.hasCpuid then b else s.cfg.idStuck)) else .error .noEflags

/-- Stage 2 of 40_cpuid_invocation.md R84: whether CPUID is usable, and the state after the flag has been put back. -/
def detectCpuid (s : State) : Except Refusal (Bool × State) :=
  match readFlag21 s with
  | .error r => .error r
  | .ok old =>
    match writeFlag21 (~~~old) s with
    | .error r => .error r
    | .ok s1 =>
      match readFlag21 s1 with
      | .error r => .error r
      | .ok new =>
        match writeFlag21 old s1 with
        | .error r => .error r
        | .ok s2 => .ok (new != old, s2)

end Sys2Proof.Machine
end

