-- ==== Sys2Proof/Machine/Features.lean ====
section
/-! DEFINITION. The feature flags by name, one enumeration for each of the four tables, and the bit of each
(41_cpuid_basic_leaves.md R108, R109, 42_cpuid_extended_leaves.md R143, R144). A flag is one bit of a returned word; it
enables nothing (41_cpuid_basic_leaves.md R111). A constructor is the table's short name without the characters a Lean name
cannot have; a bracketed short name keeps its scope in the name (nxItanium, syscallK6). -/

namespace Sys2Proof.Machine

/-- The features of leaf 1 EDX (41_cpuid_basic_leaves.md R108). -/
inductive Feat1Edx
  | fpu | vme | de | pse | tsc | msr | pae | mce | cx8 | apic | sep | mtrr | pge | mca | cmov | pat | pse36
  | psn | clfsh | nxItanium | ds | acpi | mmx | fxsr | sse | sse2 | ss | htt | tm | ia64 | pbe
deriving DecidableEq, Repr

/-- The bit of each feature of leaf 1 EDX (41_cpuid_basic_leaves.md R108). -/
def bitOfFeat1Edx : Feat1Edx → Nat
  | .fpu => 0
  | .vme => 1
  | .de => 2
  | .pse => 3
  | .tsc => 4
  | .msr => 5
  | .pae => 6
  | .mce => 7
  | .cx8 => 8
  | .apic => 9
  | .sep => 11
  | .mtrr => 12
  | .pge => 13
  | .mca => 14
  | .cmov => 15
  | .pat => 16
  | .pse36 => 17
  | .psn => 18
  | .clfsh => 19
  | .nxItanium => 20
  | .ds => 21
  | .acpi => 22
  | .mmx => 23
  | .fxsr => 24
  | .sse => 25
  | .sse2 => 26
  | .ss => 27
  | .htt => 28
  | .tm => 29
  | .ia64 => 30
  | .pbe => 31

/-- The bits of leaf 1 EDX that the table calls reserved (41_cpuid_basic_leaves.md R108; log 25). -/
def reservedOfFeat1Edx : List Nat := [10]

/-- The features of leaf 1 ECX (41_cpuid_basic_leaves.md R109). -/
inductive Feat1Ecx
  | sse3 | pclmulqdq | dtes64 | monitor | dsCpl | vmx | smx | est | tm2 | ssse3 | cnxtId | sdbg | fma | cx16
  | xtpr | pdcm | pcid | dca | sse4_1 | sse4_2 | x2apic | movbe | popcnt | tscDeadline | aesNi | xsave
  | osxsave | avx | f16c | rdrnd | hypervisor
deriving DecidableEq, Repr

/-- The bit of each feature of leaf 1 ECX (41_cpuid_basic_leaves.md R109). -/
def bitOfFeat1Ecx : Feat1Ecx → Nat
  | .sse3 => 0
  | .pclmulqdq => 1
  | .dtes64 => 2
  | .monitor => 3
  | .dsCpl => 4
  | .vmx => 5
  | .smx => 6
  | .est => 7
  | .tm2 => 8
  | .ssse3 => 9
  | .cnxtId => 10
  | .sdbg => 11
  | .fma => 12
  | .cx16 => 13
  | .xtpr => 14
  | .pdcm => 15
  | .pcid => 17
  | .dca => 18
  | .sse4_1 => 19
  | .sse4_2 => 20
  | .x2apic => 21
  | .movbe => 22
  | .popcnt => 23
  | .tscDeadline => 24
  | .aesNi => 25
  | .xsave => 26
  | .osxsave => 27
  | .avx => 28
  | .f16c => 29
  | .rdrnd => 30
  | .hypervisor => 31

/-- The bits of leaf 1 ECX that the table calls reserved (41_cpuid_basic_leaves.md R109; log 25). -/
def reservedOfFeat1Ecx : List Nat := [16]

/-- The features of leaf 80000001h EDX (42_cpuid_extended_leaves.md R143). -/
inductive FeatExtEdx
  | fpu | vme | de | pse | tsc | msr | pae | mce | cx8 | apic | syscallK6 | syscall | mtrr | pge | mca | cmov
  | pat | pse36 | ecc | nx | mmxext | mmx | fxsr | fxsrOpt | pdpe1gb | rdtscp | lm | threeDNowExt | threeDNow
deriving DecidableEq, Repr

/-- The bit of each feature of leaf 80000001h EDX (42_cpuid_extended_leaves.md R143). -/
def bitOfFeatExtEdx : FeatExtEdx → Nat
  | .fpu => 0
  | .vme => 1
  | .de => 2
  | .pse => 3
  | .tsc => 4
  | .msr => 5
  | .pae => 6
  | .mce => 7
  | .cx8 => 8
  | .apic => 9
  | .syscallK6 => 10
  | .syscall => 11
  | .mtrr => 12
  | .pge => 13
  | .mca => 14
  | .cmov => 15
  | .pat => 16
  | .pse36 => 17
  | .ecc => 19
  | .nx => 20
  | .mmxext => 22
  | .mmx => 23
  | .fxsr => 24
  | .fxsrOpt => 25
  | .pdpe1gb => 26
  | .rdtscp => 27
  | .lm => 29
  | .threeDNowExt => 30
  | .threeDNow => 31

/-- The bits of leaf 80000001h EDX that the table calls reserved (42_cpuid_extended_leaves.md R143; log 25). -/
def reservedOfFeatExtEdx : List Nat := [18, 21, 28]

/-- The features of leaf 80000001h ECX (42_cpuid_extended_leaves.md R144). -/
inductive FeatExtEcx
  | lahfLm | cmpLegacy | svm | extapic | cr8Legacy | abmLzcnt | sse4a | misalignsse | threeDNowPrefetch
  | osvw | ibs | xop | skinit | wdt | lwp | fma4 | tce | nodeidMsr | tbm | topoext | perfctrCore | perfctrNb
  | streamPerfMon | dbx | perftsc | pcxL2i | monitorx | addrMaskExt
deriving DecidableEq, Repr

/-- The bit of each feature of leaf 80000001h ECX (42_cpuid_extended_leaves.md R144). -/
def bitOfFeatExtEcx : FeatExtEcx → Nat
  | .lahfLm => 0
  | .cmpLegacy => 1
  | .svm => 2
  | .extapic => 3
  | .cr8Legacy => 4
  | .abmLzcnt => 5
  | .sse4a => 6
  | .misalignsse => 7
  | .threeDNowPrefetch => 8
  | .osvw => 9
  | .ibs => 10
  | .xop => 11
  | .skinit => 12
  | .wdt => 13
  | .lwp => 15
  | .fma4 => 16
  | .tce => 17
  | .nodeidMsr => 19
  | .tbm => 21
  | .topoext => 22
  | .perfctrCore => 23
  | .perfctrNb => 24
  | .streamPerfMon => 25
  | .dbx => 26
  | .perftsc => 27
  | .pcxL2i => 28
  | .monitorx => 29
  | .addrMaskExt => 30

/-- The bits of leaf 80000001h ECX that the table calls reserved (42_cpuid_extended_leaves.md R144; log 25). -/
def reservedOfFeatExtEcx : List Nat := [14, 18, 20, 31]

/-- Whether a returned word reports the feature of bit `k`: 1 for present, 0 for absent (41_cpuid_basic_leaves.md R111). -/
def reports (w : Word) (k : Nat) : Bool := w.getLsbD k

end Sys2Proof.Machine
end

