-- ==== Sys2Proof/Machine/Software.lean ====
section
/-! DEFINITION. What software computes from the values CPUID returns. No step uses any of this: the display arithmetic
(41_cpuid_basic_leaves.md R106), the strings put together again (R101, 42_cpuid_extended_leaves.md R150, R152), the serial
number (41_cpuid_basic_leaves.md R122), and what notes 2 to 6 let software conclude from a flag (R115 to R119). -/

namespace Sys2Proof.Machine

/-- The stepping field of a signature (41_cpuid_basic_leaves.md R104). -/
def steppingOf (sig : Word) : BitVec 4 := sig.extractLsb' 0 4

/-- The model field of a signature (41_cpuid_basic_leaves.md R104). -/
def modelOf (sig : Word) : BitVec 4 := sig.extractLsb' 4 4

/-- The family field of a signature (41_cpuid_basic_leaves.md R104). -/
def familyOf (sig : Word) : BitVec 4 := sig.extractLsb' 8 4

/-- The processor type field of a signature (41_cpuid_basic_leaves.md R104). -/
def ptypeOf (sig : Word) : BitVec 2 := sig.extractLsb' 12 2

/-- The extended model field of a signature (41_cpuid_basic_leaves.md R104). -/
def extModelOf (sig : Word) : BitVec 4 := sig.extractLsb' 16 4

/-- The extended family field of a signature (41_cpuid_basic_leaves.md R104). -/
def extFamilyOf (sig : Word) : BitVec 8 := sig.extractLsb' 20 8

/-- DisplayFamily(sig), a natural number, never truncated (41_cpuid_basic_leaves.md R106). -/
def displayFamily (sig : Word) : Nat := (familyOf sig).toNat + (extFamilyOf sig).toNat

/-- DisplayModel(sig), a natural number (41_cpuid_basic_leaves.md R106). -/
def displayModel (sig : Word) : Nat := (modelOf sig).toNat + (extModelOf sig).toNat <<< 4

/-- The vendor string in reading order: EBX, EDX, ECX, low byte first (41_cpuid_basic_leaves.md R101). -/
def vendorBytes (leaf0 : Quad) : List Byte := unpack4 leaf0.ebx ++ unpack4 leaf0.edx ++ unpack4 leaf0.ecx

/-- Sixteen characters of the brand string: EAX, EBX, ECX, EDX, low byte first (42_cpuid_extended_leaves.md R152). -/
def brandBytes (leaf : Quad) : List Byte := unpack4 leaf.eax ++ unpack4 leaf.ebx ++ unpack4 leaf.ecx ++ unpack4 leaf.edx

/-- A NUL-terminated string as software reads it: up to the first 00h byte (42_cpuid_extended_leaves.md R151). -/
def upToNul (bytes : List Byte) : List Byte := bytes.takeWhile (· != 0)

/-- The serial number from the result of leaf 3, by the vendor's layout (41_cpuid_basic_leaves.md R122); the crusoe layout
has 32 bits. -/
def serialNumber (layout : PsnLayout) (leaf3 : Quad) : Option (BitVec 64) :=
  match layout with
  | .pentium3 => some (pairValue leaf3.edx leaf3.ecx)
  | .efficeon => some (pairValue leaf3.ebx leaf3.eax)
  | .crusoe => some (leaf3.ebx.setWidth 64)
  | .none => none

/-- An early K5: AuthenticAMD Family 5 Model 0 (41_cpuid_basic_leaves.md R115). -/
def isK5Model0 (vendor : Vector Byte 12) (sig : Word) : Bool :=
  vendor == vendorAuthenticAMD && familyOf sig == 5 && modelOf sig == 0

/-- A Pentium Pro: GenuineIntel Family 6 Model 1 (41_cpuid_basic_leaves.md R116). -/
def isPentiumPro (vendor : Vector Byte 12) (sig : Word) : Bool :=
  vendor == vendorGenuineIntel && familyOf sig == 6 && modelOf sig == 1

/-- Whether leaf 1 reports PGE: bit 9 on an early K5, bit 13 elsewhere (41_cpuid_basic_leaves.md R115). -/
def reportsPge (vendor : Vector Byte 12) (sig edx1 : Word) : Bool :=
  if isK5Model0 vendor sig then reports edx1 (bitOfFeat1Edx .apic) else reports edx1 (bitOfFeat1Edx .pge)

/-- Whether leaf 1 reports an APIC: bit 9, but not on an early K5 (41_cpuid_basic_leaves.md R115). -/
def reportsApic (vendor : Vector Byte 12) (sig edx1 : Word) : Bool :=
  !isK5Model0 vendor sig && reports edx1 (bitOfFeat1Edx .apic)

/-- Whether software may conclude that SYSENTER and SYSEXIT exist: bit 11, but not on a Pentium Pro
(41_cpuid_basic_leaves.md R116). -/
def reportsSysenter (vendor : Vector Byte 12) (sig edx1 : Word) : Bool :=
  !isPentiumPro vendor sig && reports edx1 (bitOfFeat1Edx .sep)

/-- CMOV is reported by bit 15 alone (41_cpuid_basic_leaves.md R117). -/
def reportsCmov (edx1 : Word) : Bool := reports edx1 (bitOfFeat1Edx .cmov)

/-- FCMOV and FCOMI are reported by bit 15 and bit 0 together (41_cpuid_basic_leaves.md R117). -/
def reportsFcmov (edx1 : Word) : Bool := reports edx1 (bitOfFeat1Edx .cmov) && reports edx1 (bitOfFeat1Edx .fpu)

/-- Where software finds NX: leaf 1 EDX bit 20 on an Itanium emulating x86 (bit 30), leaf 80000001h EDX bit 20 on any other
processor (41_cpuid_basic_leaves.md R119). -/
def reportsNx (edx1 extEdx : Word) : Bool :=
  if reports edx1 (bitOfFeat1Edx .ia64) then reports edx1 (bitOfFeat1Edx .nxItanium)
  else reports extEdx (bitOfFeatExtEdx .nx)

/-- SYSCALL and SYSRET: bit 10 on the AMD K6, bit 11 on every other processor (42_cpuid_extended_leaves.md R148). The spec
gives no test for a K6, so the caller says. -/
def reportsSyscall (isK6 : Bool) (extEdx : Word) : Bool :=
  if isK6 then reports extEdx (bitOfFeatExtEdx .syscallK6) else reports extEdx (bitOfFeatExtEdx .syscall)

/-- Whether software is told that it runs under a hypervisor (41_cpuid_basic_leaves.md R113). -/
def reportsHypervisor (ecx1 : Word) : Bool := reports ecx1 (bitOfFeat1Ecx .hypervisor)

/-- The bits of leaf 80000001h EDX that carry information on an Intel processor (42_cpuid_extended_leaves.md R147). -/
def intelExtEdx : List FeatExtEdx := [.syscall, .nx, .pdpe1gb, .rdtscp, .lm]

/-- The bits of leaf 80000001h ECX that carry information on an Intel processor (42_cpuid_extended_leaves.md R147). -/
def intelExtEcx : List FeatExtEcx := [.lahfLm, .abmLzcnt, .threeDNowPrefetch]

/-- The word that has exactly the bits of a list. -/
def maskOf (bits : List Nat) : Word := bits.foldr (fun k m => m ||| BitVec.ofNat 32 (2 ^ k)) 0

end Sys2Proof.Machine
end

