-- ==== Sys2Proof/WellFormed.lean ====
section
/-! DEFINITION. What a model rejects. An instruction has no field that could be ill-formed (30_encoding.md R62). A
configuration can break one of the constraints the spec puts on CFG (00_scope.md R5, 70_reset_and_hazards.md R192): one
check for each. -/

namespace Sys2Proof

/-- CPUID has no operand, so every instruction is well-formed (30_encoding.md R60, R62). -/
def Instr.wf : Instr → Bool
  | .cpuid => true

/-- HAS_CPUID implies HAS_EFLAGS (40_cpuid_invocation.md R82). -/
def Config.cpuidNeedsEflags (c : Config) : Bool := !c.hasCpuid || c.hasEflags

/-- IP_WIDTH is at least 2 (92_eei_decisions.md section 2). -/
def Config.ipWidthOk (c : Config) : Bool := decide (2 ≤ c.ipWidth)

/-- CODE_BASE is an address (00_scope.md R5, 20_memory.md R47). -/
def Config.codeBaseOk (c : Config) : Bool := decide (c.codeBase < c.space)

/-- MAX_BASIC lies in the class of the basic leaves (40_cpuid_invocation.md R87). -/
def Config.maxBasicOk (c : Config) : Bool := !c.maxBasic.getLsbD 31

/-- HAS_EXT implies that MAX_EXT lies in the class of the extended leaves (40_cpuid_invocation.md R87). -/
def Config.maxExtOk (c : Config) : Bool := !c.hasExt || c.maxExt.getLsbD 31

/-- Leaf 1 ECX bit 31 is 1 if and only if there is a hypervisor (41_cpuid_basic_leaves.md R113). -/
def Config.hypervisorBitOk (c : Config) : Bool := c.feat1Ecx.getLsbD 31 == c.hypervisor

/-- Without the serial number its feature bit is 0 (41_cpuid_basic_leaves.md R114). -/
def Config.psnBitOk (c : Config) : Bool := c.psnLayout != .none || !c.feat1Edx.getLsbD 18

/-- A layout of the serial number stands only on the processors it belongs to: the Pentium III, the Efficeon, the Crusoe
(41_cpuid_basic_leaves.md R122, R123; log 27). -/
def Config.psnLayoutOk (c : Config) : Bool :=
  match c.psnLayout with
  | .none => true
  | .pentium3 => c.product == .pentium3
  | .efficeon => c.product == .efficeon
  | .crusoe => c.product == .crusoe

/-- The Pentium III is a processor of Intel (00_scope.md R2, 41_cpuid_basic_leaves.md R123; log 27). -/
def Config.pentium3IsIntel (c : Config) : Bool := c.product != .pentium3 || c.vendor == vendorGenuineIntel

/-- No AMD processor has the serial number (41_cpuid_basic_leaves.md R123). -/
def Config.amdHasNoPsn (c : Config) : Bool := c.vendor != vendorAuthenticAMD || c.psnLayout == .none

/-- On AMD processors the eighteen bits of leaf 80000001h EDX equal those of leaf 1 EDX (42_cpuid_extended_leaves.md R145). -/
def Config.amdDupOk (c : Config) : Bool :=
  c.vendor != vendorAuthenticAMD || c.extFeatEdx &&& dupMask == c.feat1Edx &&& dupMask

/-- On Intel processors outside 64-bit mode the syscall bit is 0 (42_cpuid_extended_leaves.md R146). -/
def Config.intelSyscallOk (c : Config) : Bool :=
  c.vendor != vendorGenuineIntel || c.mode64 || !c.extFeatEdx.getLsbD 11

/-- BRAND holds at least one 00h byte (42_cpuid_extended_leaves.md R151). -/
def Config.brandOk (c : Config) : Bool := c.brand.toList.any (· == 0)

/-- On a Pentium Pro (GenuineIntel Family 6 Model 1) leaf 1 EDX bit 11 reads 1 (41_cpuid_basic_leaves.md R116, D29; log 26). -/
def Config.pentiumProSepOk (c : Config) : Bool :=
  !(c.vendor == vendorGenuineIntel && c.family == 6 && c.model == 1) || c.feat1Edx.getLsbD 11

/-- A configuration that meets every constraint (70_reset_and_hazards.md R192, the row CFG). -/
def Config.wf (c : Config) : Bool :=
  c.cpuidNeedsEflags && c.ipWidthOk && c.codeBaseOk && c.maxBasicOk && c.maxExtOk && c.hypervisorBitOk && c.psnBitOk &&
  c.psnLayoutOk && c.pentium3IsIntel && c.amdHasNoPsn && c.amdDupOk && c.intelSyscallOk && c.brandOk && c.pentiumProSepOk

end Sys2Proof
end

