-- ==== Sys2Proof/Safety.lean ====
section
/-! DEFINITION. What counts as a safe run, in the terms the statements use: the invariant of the machine, the frame of an
instruction, and how a state can have no step. -/

namespace Sys2Proof.Machine

/-- Where an address stands in the program text: (a - CODE_BASE) mod 2^IP_WIDTH (20_memory.md R45). -/
def State.textOffset (s : State) (a : Nat) : Nat := s.addr (a + s.cfg.space - s.cfg.codeBase)

/-- The fault mark tells the truth about the state it stands in: a faulting instruction changed nothing else
(60_exceptions.md R170 to R172, R176). -/
def FaultMark.fits (m : FaultMark) (s : State) : Prop :=
  match m with
  | .undefinedOpcode ip => ip = s.ip ∧ s.cfg.hasCpuid = false
  | .unwrittenRegister r => r = .eax ∧ s.reg r = .noValue ∧ s.cfg.hasCpuid = true

/-- The invariant of the machine. -/
structure State.Inv (s : State) : Prop where
  /-- The configuration meets every constraint (70_reset_and_hazards.md R192). -/
  cfgOk : s.cfg.wf = true
  /-- Memory is in its canonical form. -/
  memOk : Memory.wf s.mem
  /-- Every cell stands in the address space (20_memory.md R47). -/
  memInSpace : ∀ c ∈ s.mem, c.1 < s.cfg.space
  /-- The mapped addresses are exactly the program text (20_memory.md R46). -/
  textOk : ∀ a, a < s.cfg.space → ((s.memRead a).isSome = true ↔ s.textOffset a < s.textLength)
  /-- `ip` is an address (10_state.md R23). -/
  ipOk : s.ip < s.cfg.space
  /-- The flag is ID_STUCK where it cannot be changed (10_state.md R25). -/
  flagOk : s.cfg.hasEflags = true → s.cfg.hasCpuid = false → s.eflags21 = s.cfg.idStuck
  /-- A fault mark fits the state. -/
  markOk : ∀ m, s.fault = some m → m.fits s

/-- CPUID executes normally with this leaf: the processor has it and EAX holds a value (40_cpuid_invocation.md R86). -/
abbrev CpuidRuns (s : State) (leaf : Word) : Prop := s.cfg.hasCpuid = true ∧ s.reg .eax = .held leaf

/-- What CPUID leaves as it was: the configuration, the flag (40_cpuid_invocation.md R94; log 19), the fault mark and every
byte of memory (20_memory.md R44). -/
structure CpuidFrame (s t : State) : Prop where
  cfg : t.cfg = s.cfg
  flag : t.eflags21 = s.eflags21
  mark : t.fault = s.fault
  memory : ∀ a, t.memRead a = s.memRead a

/-- `ip` stands past a CPUID: (ip + 2) mod 2^IP_WIDTH (10_state.md R23, 40_cpuid_invocation.md R95). -/
abbrev PastCpuid (s t : State) : Prop := t.ip = (s.ip + 2) % 2 ^ s.cfg.ipWidth

/-- What EBX or ECX holds after a leaf above 0: the value of the leaf, or, only on the processors of note 1, what it held
before (70_reset_and_hazards.md R196). -/
abbrev WrittenOrKept (s t : State) (r : Reg) (v : Word) : Prop :=
  t.reg r = .held v ∨ (s.cfg.keepsEbxEcx = true ∧ t.reg r = s.reg r)

/-- A register that CPUID may leave as it was: EBX or ECX, above leaf 0, on a processor of note 1
(70_reset_and_hazards.md R196). -/
abbrev MayKeep (s : State) (leaf : Word) (r : Reg) : Prop :=
  s.cfg.keepsEbxEcx = true ∧ leaf ≠ 0 ∧ (r = .ebx ∨ r = .ecx)

/-- The run is over: `ip` is the end of the text and there is no fault mark (00_scope.md R19, 10_state.md R26). -/
def State.isFinal (s : State) : Bool := s.atEnd && s.fault == none

/-- The state is faulted (10_state.md R26). -/
def State.isFaulted (s : State) : Bool := s.fault != none

/-- The state is stuck: no mark, not at the end, and a byte of the next instruction stands outside the text
(20_memory.md R45). -/
def State.isStuck (s : State) : Bool :=
  s.fault == none && !s.atEnd && (s.memRead s.ip == none || s.memRead (s.ip + 1) == none)

/-- A safe step: the next instruction runs and sets no fault mark. -/
def State.stepsSafely (s : State) : Prop := ∃ t, step s = .next t ∧ t.fault = none

end Sys2Proof.Machine
end

