-- ==== Sys2Proof/Certificates/Slice0/Obligations.lean ====
section
/-! DEFINITION. The statements for the provers. A statement about what the model chose names its log entry. -/

open Sys2Proof Sys2Proof.Machine

/-! ## Encoding -/

/-- The words written out from 30_encoding.md section 4 and 95_test_vectors.md section 2.2 (V20 to V28): `0F A2` is CPUID;
the swapped pair, a neighbouring second byte and a prefixed form are not in scope. The byte order is log 11. -/
def Obligations.WrittenWordsDecodeAsTheTableSays : Prop :=
  decode [0x0F, 0xA2] = .instr .cpuid [] ∧
  decode [0xA2, 0x0F] = .notInScope 0xA2 0x0F ∧
  decode [0x0F, 0xA3] = .notInScope 0x0F 0xA3 ∧
  decode [0x0F, 0xA0] = .notInScope 0x0F 0xA0 ∧
  decode [0x0F, 0x22] = .notInScope 0x0F 0x22 ∧
  decode [0x66, 0x0F, 0xA2] = .notInScope 0x66 0x0F ∧
  decode [0xF3, 0x0F, 0xA2] = .notInScope 0xF3 0x0F ∧
  decode [0x90, 0x0F, 0xA2] = .notInScope 0x90 0x0F ∧
  decodeTableWord 16 0xA20F = some .cpuid ∧
  decodeTableWord 16 0x0FA2 = none

/-- 30_encoding.md R63: match 0xA20F and mask 0xFFFF, the byte at the lower address in the low bits; bytes `0F A2`. -/
def Obligations.TableWordIsCpuidExactlyOnMatch : Prop :=
  (∀ w : Nat, decodeTableWord 16 w = some .cpuid ↔ w &&& 0xFFFF = 0xA20F) ∧ encode .cpuid = [0x0F, 0xA2]

/-- 30_encoding.md sections 1 and 4: decoding gives an instruction exactly on bytes that begin with its encoding, and
leaves the bytes after it; two bytes or more that begin with no instruction's encoding are refused, with those two bytes. -/
def Obligations.DecodeInvertsEncode : Prop :=
  (∀ (bytes rest : List Byte) (i : Instr), decode bytes = .instr i rest ↔ i.wf = true ∧ bytes = encode i ++ rest) ∧
  (∀ bytes : List Byte, 2 ≤ bytes.length → (∀ i rest, bytes ≠ encode i ++ rest) →
    ∃ b0 b1 rest, bytes = b0 :: b1 :: rest ∧ decode bytes = .notInScope b0 b1)

/-! ## The step -/

/-- A step runs the decoded instruction: with no fault mark and the run not over, when the two bytes at `ip` decode to an
instruction, step is exec of it (30_encoding.md section 4). Step adds nothing around exec: CPUID itself moves `ip`. -/
def Obligations.StepRunsDecodedInstruction : Prop :=
  ∀ (s : State) (b0 b1 : Byte) (i : Instr) (rest : List Byte), s.fault = none → s.atEnd = false →
    s.memRead s.ip = some b0 → s.memRead (s.ip + 1) = some b1 → decode [b0, b1] = .instr i rest → step s = exec i s

/-- A table word placed where the machine fetches is what the next step decodes: it runs, or is refused with its own two
bytes. Placing it leaves the registers, `ip`, the flag and the fault mark as they were (log 13). -/
def Obligations.PlacedWordIsWhatStepRuns : Prop :=
  ∀ (s : State) (w : Nat), 2 ≤ s.cfg.ipWidth → s.fault = none →
    (∀ i, decodeTableWord 16 w = some i → step (s.withFetchWord 16 w) = exec i (s.withFetchWord 16 w)) ∧
    (decodeTableWord 16 w = none →
      step (s.withFetchWord 16 w) = .refused (.notInScope s.ip (BitVec.ofNat 8 w) (BitVec.ofNat 8 (w / 256)))) ∧
    (s.withFetchWord 16 w).regs = s.regs ∧ (s.withFetchWord 16 w).ip = s.ip ∧
    (s.withFetchWord 16 w).eflags21 = s.eflags21 ∧ (s.withFetchWord 16 w).fault = s.fault

/-- A state whose fault mark is set has no further step (10_state.md section 4, decision D6). -/
def Obligations.MarkedStateHasNoStep : Prop :=
  ∀ (s : State) (m : FaultMark), s.fault = some m → step s = .fault (.halted m) ∧ s.isFinal = false

/-- The run ends at CODE_BASE + length(CODE), with no fetch (00_scope.md section 7, decision D24; the refusal is log 8). -/
def Obligations.EndOfTextEndsTheRun : Prop :=
  ∀ s : State, s.fault = none →
    s.ip % 2 ^ s.cfg.ipWidth = (s.cfg.codeBase + List.length s.mem) % 2 ^ s.cfg.ipWidth →
    step s = .refused .endOfRun ∧ s.isFinal = true

/-- Away from the end, a read outside the text is the stuck state: neither byte may be missing, and the state is neither
faulted nor final (20_memory.md section 3, decision D18; the named reason is log 9). -/
def Obligations.FetchOutsideTextIsStuck : Prop :=
  ∀ s : State, s.fault = none → s.atEnd = false →
    (s.memRead s.ip = none → step s = .fault (.fetchOutsideText (s.ip % 2 ^ s.cfg.ipWidth))) ∧
    (s.memRead s.ip ≠ none → s.memRead (s.ip + 1) = none →
      step s = .fault (.fetchOutsideText ((s.ip + 1) % 2 ^ s.cfg.ipWidth))) ∧
    (s.isStuck = true ↔ ∃ a, step s = .fault (.fetchOutsideText a)) ∧ s.isFaulted = false ∧ s.isFinal = false

/-- Two bytes of the text that are not `0F A2` are refused, with their address and the bytes (30_encoding.md section 4,
decision D1; log 10). -/
def Obligations.OtherBytesAreRefused : Prop :=
  ∀ (s : State) (b0 b1 : Byte), s.fault = none → s.atEnd = false → s.memRead s.ip = some b0 →
    s.memRead (s.ip + 1) = some b1 → (b0 ≠ 0x0F ∨ b1 ≠ 0xA2) → step s = .refused (.notInScope s.ip b0 b1)

/-- No step changes the configuration, the program text or the flag, whatever the state (decisions D11, D18, D4; log 1,
log 14, log 19). -/
def Obligations.NoStepChangesConfigTextOrFlag : Prop :=
  ∀ s t : State, step s = .next t →
    t.cfg = s.cfg ∧ t.mem = s.mem ∧ (∀ a, t.memRead a = s.memRead a) ∧ t.eflags21 = s.eflags21

/-- A step either completes a CPUID, moving `ip` past it and leaving values in EAX and EDX with no mark set, or raises one of
the two faults and writes nothing but the mark (60_exceptions.md sections 1 and 4, decision D6). -/
def Obligations.StepCompletesOrOnlyMarks : Prop :=
  ∀ s t : State, step s = .next t →
    (t.fault = none ∧ PastCpuid s t ∧ (∃ w, t.reg .eax = .held w) ∧ (∃ w, t.reg .edx = .held w)) ∨
    (∃ m, (m = .undefinedOpcode s.ip ∨ m = .unwrittenRegister .eax) ∧ t = { s with fault := some m })

/-- The invariant holds in every state a step leads to from a state in which it holds. -/
def Obligations.StepKeepsInvariant : Prop :=
  ∀ s t : State, s.Inv → step s = .next t → t.Inv

/-- The invariant holds right after reset (the configuration there is the model's choice, log 2). -/
def Obligations.ResetMeetsInvariant : Prop := State.reset.Inv

/-- Every launch state of 70_reset_and_hazards.md section 1 meets the invariant: whatever the legal configuration, the
text that fits the address space, the registers and the flag. -/
def Obligations.LaunchMeetsInvariant : Prop :=
  ∀ (c : Config) (code : List Byte) (r : Regs) (flag : Bit) (draws : Nat), c.wf = true → code.length ≤ c.space →
    (State.launch c code r flag draws).Inv

/-- The text of a launch state reads back: byte i of CODE at CODE_BASE + i modulo 2^IP_WIDTH, nothing at any other address
(20_memory.md section 3, decision D18). -/
def Obligations.TextReadsBackAndNothingElse : Prop :=
  ∀ (c : Config) (code : List Byte) (r : Regs) (flag : Bit) (draws : Nat), code.length ≤ c.space →
    (∀ (i : Nat) (h : i < code.length), (State.launch c code r flag draws).memRead (c.codeBase + i) = some code[i]) ∧
    (∀ a : Nat, (∀ i, i < code.length → a % 2 ^ c.ipWidth ≠ (c.codeBase + i) % 2 ^ c.ipWidth) →
      (State.launch c code r flag draws).memRead a = none) ∧
    (State.launch c code r flag draws).textLength = code.length

/-! ## CPUID: faults, completion, frame -/

/-- CPUID is, for some draws and some choices, the relation of 40_cpuid_invocation.md section 3. -/
def Obligations.CpuidRunsWithSomeFreeValues : Prop :=
  ∀ s : State, ∃ (any : Quad) (keep : Keep), exec .cpuid s = .next (cpuidWith any keep s)

/-- On a processor without CPUID the fault is UndefinedOpcode with the `ip` of the instruction, whatever EAX holds or does
not hold; nothing else changes (60_exceptions.md sections 1 and 3, decision D5). -/
def Obligations.AbsentCpuidRaisesUndefinedOpcode : Prop :=
  ∀ s : State, s.cfg.hasCpuid = false →
    ∃ t, exec .cpuid s = .next t ∧ t.fault = some (.undefinedOpcode s.ip) ∧ t.regs = s.regs ∧ t.ip = s.ip ∧
      t.eflags21 = s.eflags21 ∧ t.cfg = s.cfg ∧ ∀ a, t.memRead a = s.memRead a

/-- On a processor with CPUID, an EAX without a value gives UnwrittenRegister(EAX), and nothing else changes
(60_exceptions.md section 1, decision D20; log 7). -/
def Obligations.UnwrittenLeafRaisesUnwrittenRegister : Prop :=
  ∀ s : State, s.cfg.hasCpuid = true → s.reg .eax = .noValue →
    ∃ t, exec .cpuid s = .next t ∧ t.fault = some (.unwrittenRegister .eax) ∧ t.regs = s.regs ∧ t.ip = s.ip ∧
      t.eflags21 = s.eflags21 ∧ t.cfg = s.cfg ∧ ∀ a, t.memRead a = s.memRead a

/-- CPUID sets a fault mark exactly where the processor lacks it or EAX holds no value: no leaf value faults
(60_exceptions.md section 1, decisions D5, D7, D20). -/
def Obligations.CpuidFaultsExactlyWhenItCannotRun : Prop :=
  ∀ s t : State, s.fault = none → exec .cpuid s = .next t →
    (t.fault ≠ none ↔ s.cfg.hasCpuid = false ∨ s.reg .eax = .noValue)

/-- With every leaf, supported or not, CPUID completes: values in EAX and EDX, in EBX and ECX a value or, only on the
processors of note 1 and above leaf 0, what they held; `ip` past the instruction; everything else unchanged
(40_cpuid_invocation.md sections 3 and 5, decisions D3, D4, D7, D22; the unchanged flag is log 19, the move of `ip` log 12,
the kept registers log 16). -/
def Obligations.EveryLeafCompletes : Prop :=
  ∀ (s : State) (leaf : Word), CpuidRuns s leaf →
    ∃ t, exec .cpuid s = .next t ∧ CpuidFrame s t ∧ PastCpuid s t ∧
      (∃ w, t.reg .eax = .held w) ∧ (∃ w, t.reg .edx = .held w) ∧
      ((∃ w, t.reg .ebx = .held w) ∨ (s.cfg.keepsEbxEcx = true ∧ leaf ≠ 0 ∧ t.reg .ebx = s.reg .ebx)) ∧
      ((∃ w, t.reg .ecx = .held w) ∨ (s.cfg.keepsEbxEcx = true ∧ leaf ≠ 0 ∧ t.reg .ecx = s.reg .ecx))

/-! ## The basic leaves -/

/-- 41_cpuid_basic_leaves.md section 1: leaf 0 returns MAX_BASIC in EAX and the vendor string in EBX, EDX, ECX, four
characters a register, the first in the low byte. It is supported on every processor with CPUID. The unchanged flag of the
frame is decision D4 (log 19), the move of `ip` decision D3 (log 12). -/
def Obligations.LeafZeroReturnsMaxBasicAndVendor : Prop :=
  ∀ s : State, CpuidRuns s 0 →
    ∃ t b c d, exec .cpuid s = .next t ∧ t.reg .eax = .held s.cfg.maxBasic ∧
      t.reg .ebx = .held b ∧ unpack4 b = [s.cfg.vendor[0], s.cfg.vendor[1], s.cfg.vendor[2], s.cfg.vendor[3]] ∧
      t.reg .edx = .held d ∧ unpack4 d = [s.cfg.vendor[4], s.cfg.vendor[5], s.cfg.vendor[6], s.cfg.vendor[7]] ∧
      t.reg .ecx = .held c ∧ unpack4 c = [s.cfg.vendor[8], s.cfg.vendor[9], s.cfg.vendor[10], s.cfg.vendor[11]] ∧
      CpuidFrame s t ∧ PastCpuid s t

/-- 41_cpuid_basic_leaves.md R102: the worked example of the source, "GenuineIntel". -/
def Obligations.GenuineIntelExample : Prop :=
  ∀ s : State, CpuidRuns s 0 →
    s.cfg.vendor = #v[0x47, 0x65, 0x6E, 0x75, 0x69, 0x6E, 0x65, 0x49, 0x6E, 0x74, 0x65, 0x6C] →
    ∃ t, exec .cpuid s = .next t ∧ t.reg .ebx = .held 0x756E6547 ∧ t.reg .edx = .held 0x49656E69 ∧
      t.reg .ecx = .held 0x6C65746E

/-- 41_cpuid_basic_leaves.md R104: where each field stands in the signature that leaf 1 returns in EAX. -/
def Obligations.SignatureFieldsStandWhereListed : Prop :=
  ∀ s : State, CpuidRuns s 1 → 1 ≤ s.cfg.maxBasic →
    ∃ t sig, exec .cpuid s = .next t ∧ t.reg .eax = .held sig ∧
      sig.extractLsb' 0 4 = s.cfg.stepping ∧ sig.extractLsb' 4 4 = s.cfg.model ∧ sig.extractLsb' 8 4 = s.cfg.family ∧
      sig.extractLsb' 12 2 = s.cfg.ptype ∧ sig.extractLsb' 16 4 = s.cfg.extModel ∧
      sig.extractLsb' 20 8 = s.cfg.extFamily ∧ sig.extractLsb' 28 4 = s.cfg.sigRsvd.extractLsb' 0 4 ∧
      sig.extractLsb' 14 2 = s.cfg.sigRsvd.extractLsb' 4 2

/-- 41_cpuid_basic_leaves.md section 2: leaf 1 whole, with the frame; EBX and ECX as 70_reset_and_hazards.md section 3 lets
them be. The unchanged flag of the frame is decision D4 (log 19), the move of `ip` decision D3 (log 12). -/
def Obligations.LeafOneReturnsSignatureAndFeatures : Prop :=
  ∀ s : State, CpuidRuns s 1 → 1 ≤ s.cfg.maxBasic →
    ∃ t, exec .cpuid s = .next t ∧ t.reg .eax = .held (signature s.cfg) ∧ WrittenOrKept s t .ebx s.cfg.leaf1Ebx ∧
      WrittenOrKept s t .ecx s.cfg.feat1Ecx ∧ t.reg .edx = .held s.cfg.feat1Edx ∧ CpuidFrame s t ∧ PastCpuid s t

/-- 41_cpuid_basic_leaves.md section 2, the displayed family and model of the signature leaf 1 returns: sums in the natural
numbers, without wrap (decision D25), so the family reaches 270, and the model is the concatenation of the two fields. -/
def Obligations.DisplayedFamilyAndModelAreSums : Prop :=
  ∀ s : State, CpuidRuns s 1 → 1 ≤ s.cfg.maxBasic →
    ∃ t sig, exec .cpuid s = .next t ∧ t.reg .eax = .held sig ∧
      displayFamily sig = s.cfg.family.toNat + s.cfg.extFamily.toNat ∧ displayFamily sig ≤ 270 ∧
      displayModel sig = s.cfg.model.toNat + 16 * s.cfg.extModel.toNat ∧
      displayModel sig = (s.cfg.extModel ++ s.cfg.model).toNat ∧ displayModel sig ≤ 255

/-- 41_cpuid_basic_leaves.md section 3: leaf 2 returns its four words in EAX, EBX, ECX, EDX; EBX and ECX as
70_reset_and_hazards.md section 3 lets them be. The unchanged flag of the frame is decision D4 (log 19), the move of `ip`
decision D3 (log 12). -/
def Obligations.LeafTwoReturnsDescriptors : Prop :=
  ∀ s : State, CpuidRuns s 2 → 2 ≤ s.cfg.maxBasic →
    ∃ t, exec .cpuid s = .next t ∧ t.reg .eax = .held s.cfg.leaf2.eax ∧ WrittenOrKept s t .ebx s.cfg.leaf2.ebx ∧
      WrittenOrKept s t .ecx s.cfg.leaf2.ecx ∧ t.reg .edx = .held s.cfg.leaf2.edx ∧ CpuidFrame s t ∧ PastCpuid s t

/-- 41_cpuid_basic_leaves.md section 4: leaf 3 returns the serial number in EDX:ECX, in EBX:EAX or in EBX alone, by the
layout, when the BIOS setting is on; the first register of a pair holds the high half (decision D13, log 24).
EBX and ECX are as 70_reset_and_hazards.md section 3 lets them be. The unchanged flag of the frame is decision D4 (log 19),
the move of `ip` decision D3 (log 12). -/
def Obligations.LeafThreeReturnsSerialNumber : Prop :=
  ∀ s : State, CpuidRuns s 3 → 3 ≤ s.cfg.maxBasic → s.cfg.psnEnabled = true →
    ∃ t, exec .cpuid s = .next t ∧ CpuidFrame s t ∧ PastCpuid s t ∧
      (s.cfg.psnLayout = .pentium3 → ∃ hi lo, t.reg .edx = .held hi ∧ WrittenOrKept s t .ecx lo ∧
        pairValue hi lo = s.cfg.psn) ∧
      (s.cfg.psnLayout = .efficeon → ∃ hi lo, WrittenOrKept s t .ebx hi ∧ t.reg .eax = .held lo ∧
        pairValue hi lo = s.cfg.psn) ∧
      (s.cfg.psnLayout = .crusoe → WrittenOrKept s t .ebx (s.cfg.psn.extractLsb' 0 32))

/-! ## The extended leaves -/

/-- 42_cpuid_extended_leaves.md section 1: leaf 80000000h returns MAX_EXT in EAX wherever there are extended leaves. The
unchanged flag of the frame is decision D4 (log 19), the move of `ip` decision D3 (log 12). -/
def Obligations.LeafExtZeroReturnsMaxExt : Prop :=
  ∀ s : State, s.cfg.wf = true → CpuidRuns s 0x80000000 → s.cfg.hasExt = true →
    ∃ t, exec .cpuid s = .next t ∧ t.reg .eax = .held s.cfg.maxExt ∧ CpuidFrame s t ∧ PastCpuid s t

/-- 42_cpuid_extended_leaves.md section 2: leaf 80000001h returns the extended feature flags in EDX and ECX; ECX as
70_reset_and_hazards.md section 3 lets it be. The unchanged flag of the frame is decision D4 (log 19), the move of `ip`
decision D3 (log 12). -/
def Obligations.LeafExtOneReturnsExtendedFeatures : Prop :=
  ∀ s : State, CpuidRuns s 0x80000001 → s.cfg.hasExt = true → 0x80000001 ≤ s.cfg.maxExt →
    ∃ t, exec .cpuid s = .next t ∧ t.reg .edx = .held s.cfg.extFeatEdx ∧ WrittenOrKept s t .ecx s.cfg.extFeatEcx ∧
      CpuidFrame s t ∧ PastCpuid s t

/-- 42_cpuid_extended_leaves.md section 3: leaf 80000002h + j returns characters 16 j to 16 j + 15 of the brand string in
EAX, EBX, ECX, EDX, the first of each four in the low byte (decision D12, log 11). EBX and ECX are as
70_reset_and_hazards.md section 3 lets them be. The unchanged flag of the frame is decision D4 (log 19), the move of `ip`
decision D3 (log 12). -/
def Obligations.BrandLeafReturnsSixteenCharacters : Prop :=
  ∀ (s : State) (leaf : Word) (j : Nat), j < 3 → leaf = BitVec.ofNat 32 (0x80000002 + j) → CpuidRuns s leaf →
    s.cfg.hasExt = true → leaf ≤ s.cfg.maxExt →
    ∃ t a b c d, exec .cpuid s = .next t ∧ t.reg .eax = .held a ∧ WrittenOrKept s t .ebx b ∧ WrittenOrKept s t .ecx c ∧
      t.reg .edx = .held d ∧
      unpack4 a ++ unpack4 b ++ unpack4 c ++ unpack4 d = (s.cfg.brand.toList.drop (16 * j)).take 16 ∧
      CpuidFrame s t ∧ PastCpuid s t

/-- The brand string put together from three executions, on a processor outside note 1, is BRAND, all 48 bytes in order,
and software reads it up to a NUL that is there (42_cpuid_extended_leaves.md section 3, decision D12). -/
def Obligations.BrandStringReadsBack : Prop :=
  ∀ s2 s3 s4 t2 t3 t4 : State, s3.cfg = s2.cfg → s4.cfg = s2.cfg → s2.cfg.wf = true → s2.cfg.keepsEbxEcx = false →
    s2.cfg.hasExt = true → 0x80000004 ≤ s2.cfg.maxExt →
    CpuidRuns s2 0x80000002 → CpuidRuns s3 0x80000003 → CpuidRuns s4 0x80000004 →
    exec .cpuid s2 = .next t2 → exec .cpuid s3 = .next t3 → exec .cpuid s4 = .next t4 →
    ∃ q2 q3 q4 : Quad, (∀ r, t2.reg r = .held (quadGet q2 r)) ∧ (∀ r, t3.reg r = .held (quadGet q3 r)) ∧
      (∀ r, t4.reg r = .held (quadGet q4 r)) ∧
      brandBytes q2 ++ brandBytes q3 ++ brandBytes q4 = s2.cfg.brand.toList ∧
      (upToNul (brandBytes q2 ++ brandBytes q3 ++ brandBytes q4)).length < 48

/-- 42_cpuid_extended_leaves.md section 5: leaf 80000006h returns the L2 cache word in ECX, which is as
70_reset_and_hazards.md section 3 lets it be. The unchanged flag of the frame is decision D4 (log 19), the move of `ip`
decision D3 (log 12). -/
def Obligations.LeafExtSixReturnsL2Info : Prop :=
  ∀ s : State, CpuidRuns s 0x80000006 → s.cfg.hasExt = true → 0x80000006 ≤ s.cfg.maxExt →
    ∃ t, exec .cpuid s = .next t ∧ WrittenOrKept s t .ecx s.cfg.l2Info ∧ CpuidFrame s t ∧ PastCpuid s t

/-- 42_cpuid_extended_leaves.md section 6: leaf 80000008h returns the address sizes in EAX. The unchanged flag of the frame
is decision D4 (log 19), the move of `ip` decision D3 (log 12). -/
def Obligations.LeafExtEightReturnsAddressSizes : Prop :=
  ∀ s : State, CpuidRuns s 0x80000008 → s.cfg.hasExt = true → 0x80000008 ≤ s.cfg.maxExt →
    ∃ t, exec .cpuid s = .next t ∧ t.reg .eax = .held s.cfg.addrSizes ∧ CpuidFrame s t ∧ PastCpuid s t

/-! ## The range rule, unknown values, the old registers -/

/-- 40_cpuid_invocation.md section 3: a leaf is supported exactly in the range of its own class, compared unsigned; leaf 0
always, leaf 80000000h wherever there are extended leaves (decision D26). -/
def Obligations.LeafSupportedExactlyInItsRange : Prop :=
  ∀ c : Config, c.wf = true →
    (∀ leaf : Word, leaf.toNat < 2 ^ 31 → (supported c leaf = true ↔ leaf.toNat ≤ c.maxBasic.toNat)) ∧
    (∀ leaf : Word, 2 ^ 31 ≤ leaf.toNat → (supported c leaf = true ↔ c.hasExt = true ∧ leaf.toNat ≤ c.maxExt.toNat)) ∧
    supported c 0 = true ∧ (supported c 0x80000000 = true ↔ c.hasExt = true)

/-- A register that the rule of the leaf does not name, and every register after an unsupported, undocumented or reserved
leaf, can come out with any value whatever; only a register that note 1 lets be may keep what it held instead
(00_scope.md section 5, decisions D7, D8, D9, D22). -/
def Obligations.UnnamedRegistersAdmitEveryValue : Prop :=
  ∀ (s : State) (leaf : Word) (q : Quad), CpuidRuns s leaf →
    ∃ any : Quad, ∀ (keep : Keep) (r : Reg), leafNames s.cfg leaf r = false →
      (cpuidWith any keep s).reg r = .held (quadGet q r) ∨
      (MayKeep s leaf r ∧ (cpuidWith any keep s).reg r = s.reg r)

/-- A register that the rule of the leaf names comes out the same in any two executions with the same leaf on the same
processor: it depends on no draw, on no other register, on no memory, on no `ip`. The one way an old value shows is that
of note 1: an EBX or ECX that was kept (20_memory.md section 3, 40_cpuid_invocation.md section 5, decision D23). -/
def Obligations.NamedRegistersDependOnLeafAndConfigOnly : Prop :=
  ∀ (s t u v : State) (leaf : Word) (r : Reg), s.cfg = t.cfg → CpuidRuns s leaf → CpuidRuns t leaf →
    leafNames s.cfg leaf r = true → exec .cpuid s = .next u → exec .cpuid t = .next v →
    u.reg r = v.reg r ∨ (MayKeep s leaf r ∧ (u.reg r = s.reg r ∨ v.reg r = t.reg r))

/-- 70_reset_and_hazards.md section 3: above leaf 0 on the processors of note 1, EBX and ECX independently get the leaf's
value or keep what they held, a missing value too; all four combinations are there; EAX and EDX are always written
(decision D22). -/
def Obligations.KeptRegistersFourCombinations : Prop :=
  ∀ (s : State) (leaf : Word) (any : Quad), CpuidRuns s leaf → s.cfg.keepsEbxEcx = true → leaf ≠ 0 →
    ∃ q : Quad, ∀ keepB keepC : Bool,
      (cpuidWith any ⟨keepB, keepC⟩ s).regs = {
        eax := .held q.eax
        ebx := if keepB then s.reg .ebx else .held q.ebx
        ecx := if keepC then s.reg .ecx else .held q.ecx
        edx := .held q.edx }

/-- 70_reset_and_hazards.md section 3: on leaf 0, and on every processor outside note 1, nothing is kept: the choice does
not exist (decision D22). -/
def Obligations.NothingIsKeptOnLeafZeroOrNewProcessors : Prop :=
  ∀ (s : State) (leaf : Word) (any : Quad) (keep keep' : Keep), CpuidRuns s leaf →
    (s.cfg.keepsEbxEcx = false ∨ leaf = 0) → cpuidWith any keep s = cpuidWith any keep' s ∧
      ∃ q : Quad, ∀ r, (cpuidWith any keep s).reg r = .held (quadGet q r)

/-- 70_reset_and_hazards.md section 3, the recommended workaround: with EBX and ECX zero before leaf 1, each holds the true
value or 0 after it, so no flag of ECX is reported that the processor does not have. -/
def Obligations.ZeroedRegistersReadTrueOrZero : Prop :=
  ∀ s : State, CpuidRuns s 1 → 1 ≤ s.cfg.maxBasic → s.reg .ebx = .held 0 → s.reg .ecx = .held 0 →
    ∃ t b c, exec .cpuid s = .next t ∧ t.reg .ebx = .held b ∧ (b = s.cfg.leaf1Ebx ∨ b = 0) ∧
      t.reg .ecx = .held c ∧ (c = s.cfg.feat1Ecx ∨ c = 0) ∧
      ∀ f : Feat1Ecx, reports c (bitOfFeat1Ecx f) = true → reports s.cfg.feat1Ecx (bitOfFeat1Ecx f) = true

/-! ## EFLAGS bit 21 -/

/-- 40_cpuid_invocation.md R83: if what is written reads back for both values, the processor has CPUID. -/
def Obligations.ChangeableFlagMeansCpuid : Prop :=
  ∀ s : State, (∀ b : Bit, ∃ t, writeFlag21 b s = .ok t ∧ readFlag21 t = .ok b) → s.cfg.hasCpuid = true

/-- 40_cpuid_invocation.md section 2: on a processor with EFLAGS, the detection procedure answers whether CPUID exists, and
leaves the state as it found it (the converse of R83 is decision D14, log 21). -/
def Obligations.DetectionFindsCpuidAndRestoresState : Prop :=
  ∀ s : State, s.Inv → s.cfg.hasEflags = true → detectCpuid s = .ok (s.cfg.hasCpuid, s)

/-- 10_state.md section 3: without EFLAGS neither primitive is defined and the call is refused, and so is the detection
(decision D14, log 22). -/
def Obligations.FlagPrimitivesRefusedWithoutEflags : Prop :=
  ∀ (s : State) (b : Bit), s.cfg.hasEflags = false →
    readFlag21 s = .error .noEflags ∧ writeFlag21 b s = .error .noEflags ∧ detectCpuid s = .error .noEflags

/-- CPUID does not use the flag up: after it, reading bit 21, reading it after a write, and the detection procedure's answer
(or its refusal) are as before (40_cpuid_invocation.md section 5, decision D4, log 19). -/
def Obligations.CpuidLeavesTheFlagAsChangeable : Prop :=
  ∀ s t : State, exec .cpuid s = .next t →
    readFlag21 t = readFlag21 s ∧
    (∀ b s', writeFlag21 b s = .ok s' → ∃ t', writeFlag21 b t = .ok t' ∧ readFlag21 t' = readFlag21 s') ∧
    (detectCpuid t).map Prod.fst = (detectCpuid s).map Prod.fst

/-! ## What a legal configuration shows in the results -/

/-- 41_cpuid_basic_leaves.md section 2, the hypervisor bit: the word that leaf 1 returns in ECX has bit 31 set if and only if
there is a hypervisor. On the processors of note 1 an ECX that was kept shows its old bit instead (70_reset_and_hazards.md
section 3); a legal configuration ties the returned word to HYPERVISOR. -/
def Obligations.HypervisorBitShowsInLeafOne : Prop :=
  ∀ s : State, s.cfg.wf = true → CpuidRuns s 1 → 1 ≤ s.cfg.maxBasic →
    ∃ t w, exec .cpuid s = .next t ∧ WrittenOrKept s t .ecx w ∧ (w.getLsbD 31 = true ↔ s.cfg.hypervisor = true)

/-- 41_cpuid_basic_leaves.md R114: without a serial number the PSN bit of leaf 1, EDX bit 18, is 0. -/
def Obligations.PsnBitClearWithoutSerialNumber : Prop :=
  ∀ s : State, s.cfg.wf = true → s.cfg.psnLayout = .none → CpuidRuns s 1 → 1 ≤ s.cfg.maxBasic →
    ∃ t w, exec .cpuid s = .next t ∧ t.reg .edx = .held w ∧ w.getLsbD 18 = false

/-- 42_cpuid_extended_leaves.md section 2, the duplicated bits: on AMD processors bits 0 to 9, 12 to 17, 23 and 24 of EDX
are the same after leaf 80000001h as after leaf 1. -/
def Obligations.AmdDuplicatedBitsAgree : Prop :=
  ∀ s t u v : State, s.cfg = t.cfg → s.cfg.wf = true → s.cfg.vendor = vendorAuthenticAMD →
    CpuidRuns s 1 → 1 ≤ s.cfg.maxBasic → CpuidRuns t 0x80000001 → t.cfg.hasExt = true → 0x80000001 ≤ t.cfg.maxExt →
    exec .cpuid s = .next u → exec .cpuid t = .next v →
    ∃ x y : Word, u.reg .edx = .held x ∧ v.reg .edx = .held y ∧
      ∀ k : Nat, (k ≤ 9 ∨ (12 ≤ k ∧ k ≤ 17) ∨ k = 23 ∨ k = 24) → x.getLsbD k = y.getLsbD k

/-- 42_cpuid_extended_leaves.md section 2, the syscall bit: on Intel processors outside 64-bit mode, EDX bit 11 of leaf
80000001h is 0. -/
def Obligations.IntelSyscallBitClearOutside64BitMode : Prop :=
  ∀ s : State, s.cfg.wf = true → s.cfg.vendor = vendorGenuineIntel → s.cfg.mode64 = false →
    CpuidRuns s 0x80000001 → s.cfg.hasExt = true → 0x80000001 ≤ s.cfg.maxExt →
    ∃ t w, exec .cpuid s = .next t ∧ t.reg .edx = .held w ∧ reportsSyscall false w = false

/-- 41_cpuid_basic_leaves.md section 2, note 3: on a Pentium Pro, as its vendor string and signature tell, EDX bit 11 of
leaf 1 reads 1 and software does not conclude that SYSENTER exists (the constraint is log 26). -/
def Obligations.PentiumProSysenterBitIsNotTrusted : Prop :=
  ∀ s : State, s.cfg.wf = true → s.cfg.vendor = vendorGenuineIntel → s.cfg.family = 6 → s.cfg.model = 1 →
    CpuidRuns s 1 → 1 ≤ s.cfg.maxBasic →
    ∃ t sig w, exec .cpuid s = .next t ∧ t.reg .eax = .held sig ∧ t.reg .edx = .held w ∧
      reports w (bitOfFeat1Edx .sep) = true ∧ reportsSysenter s.cfg.vendor sig w = false

/-- The four flag tables: every bit below 32 is reserved or has exactly one feature, and no feature a reserved bit; the
masks that 42_cpuid_extended_leaves.md and 93_implementation_defined.md print are those of the listed bits. -/
def Obligations.FeatureTablesGiveEachBitOnce : Prop :=
  (∀ f, bitOfFeat1Edx f < 32 ∧ bitOfFeat1Edx f ∉ reservedOfFeat1Edx) ∧
  (∀ f, bitOfFeat1Ecx f < 32 ∧ bitOfFeat1Ecx f ∉ reservedOfFeat1Ecx) ∧
  (∀ f, bitOfFeatExtEdx f < 32 ∧ bitOfFeatExtEdx f ∉ reservedOfFeatExtEdx) ∧
  (∀ f, bitOfFeatExtEcx f < 32 ∧ bitOfFeatExtEcx f ∉ reservedOfFeatExtEcx) ∧
  (∀ f g, bitOfFeat1Edx f = bitOfFeat1Edx g → f = g) ∧ (∀ f g, bitOfFeat1Ecx f = bitOfFeat1Ecx g → f = g) ∧
  (∀ f g, bitOfFeatExtEdx f = bitOfFeatExtEdx g → f = g) ∧ (∀ f g, bitOfFeatExtEcx f = bitOfFeatExtEcx g → f = g) ∧
  (∀ k, k < 32 → k ∉ reservedOfFeat1Edx → ∃ f, bitOfFeat1Edx f = k) ∧
  (∀ k, k < 32 → k ∉ reservedOfFeat1Ecx → ∃ f, bitOfFeat1Ecx f = k) ∧
  (∀ k, k < 32 → k ∉ reservedOfFeatExtEdx → ∃ f, bitOfFeatExtEdx f = k) ∧
  (∀ k, k < 32 → k ∉ reservedOfFeatExtEcx → ∃ f, bitOfFeatExtEcx f = k) ∧
  maskOf [0, 1, 2, 3, 4, 5, 6, 7, 8, 9, 12, 13, 14, 15, 16, 17, 23, 24] = dupMask ∧ dupMask = 0x0183F3FF ∧
  maskOf (intelExtEdx.map bitOfFeatExtEdx) = 0x2C100800 ∧ maskOf (intelExtEcx.map bitOfFeatExtEcx) = 0x00000121 ∧
  maskOf reservedOfFeatExtEdx = 0x10240000 ∧ maskOf reservedOfFeatExtEcx = 0x80144000

/-! ## Reset -/

/-- 70_reset_and_hazards.md section 1: on an 80386 or later, `x[EDX][15:0]` right after reset is RESET_DX, for a processor
with CPUID and for one without, and so DX reads RESET_DX: that DX is the low half of EDX is log 4 (10_state.md section 1). -/
def Obligations.ResetLeavesIdentificationInDx : Prop :=
  ∀ c : Config, c.hasEflags = true →
    ∃ w, (State.resetWith c).reg .edx = .held w ∧ w.extractLsb' 0 16 = c.resetDx ∧ (State.resetWith c).dx = some c.resetDx

/-- The rest of the state right after reset: the fault mark is none (10_state.md section 9). The model's choices are the zero
in EAX, EBX and ECX, in EDX bits 31:16, and in all of EDX without EFLAGS (log 3); `ip` at CODE_BASE (log 5); the flag, 0 with
CPUID and held as 0 without EFLAGS (log 6); the configuration (log 1); the empty text (log 14). -/
def Obligations.ResetLeavesTheChosenValues : Prop :=
  ∀ c : Config, (State.resetWith c).fault = none ∧ (State.resetWith c).cfg = c ∧ (State.resetWith c).ip = c.codeBase ∧
    (∀ r, r ≠ .edx → (State.resetWith c).reg r = .held 0) ∧ (∀ a, (State.resetWith c).memRead a = none) ∧
    (c.hasEflags = true →
      ∃ w, (State.resetWith c).reg .edx = .held w ∧ w.extractLsb' 16 16 = 0) ∧
    (c.hasEflags = false → (State.resetWith c).reg .edx = .held 0) ∧
    (c.hasEflags = false → (State.resetWith c).eflags21 = 0) ∧
    (c.hasEflags = true → c.hasCpuid = true → (State.resetWith c).eflags21 = 0) ∧
    (c.hasEflags = true → c.hasCpuid = false → (State.resetWith c).eflags21 = c.idStuck)

/-! ## Which processors have a serial number -/

/-- 41_cpuid_basic_leaves.md section 4, which processors have the feature: on an AMD processor there is no layout, whatever
the BIOS setting, and so leaf 1 reports none (EDX bit 18 is 0); each layout stands only on its own processor, and the
pentium3 layout only under Intel's vendor string (how a configuration says which processor it stands for is log 27). -/
def Obligations.SerialNumberStandsOnlyWhereListed : Prop :=
  ∀ s : State, s.cfg.wf = true →
    (s.cfg.vendor = vendorAuthenticAMD → s.cfg.psnLayout = .none ∧
      (CpuidRuns s 1 → 1 ≤ s.cfg.maxBasic →
        ∃ t w, exec .cpuid s = .next t ∧ t.reg .edx = .held w ∧ w.getLsbD 18 = false)) ∧
    (s.cfg.psnLayout = .pentium3 → s.cfg.product = .pentium3 ∧ s.cfg.vendor = vendorGenuineIntel) ∧
    (s.cfg.psnLayout = .efficeon → s.cfg.product = .efficeon) ∧
    (s.cfg.psnLayout = .crusoe → s.cfg.product = .crusoe)
end

