-- ==== Sys2Proof/Laws/Decode.lean ====
section
/-! SUPPORT. What the decoder gives on the bytes it can be given. -/

namespace Sys2Proof

/-- On two bytes or more the decoder compares the first two. -/
theorem decode_two (b0 b1 : Byte) (rest : List Byte) : decode (b0 :: b1 :: rest) =
    if b0 = opcodeByte1 ∧ b1 = opcodeByte2 then .instr .cpuid rest else .notInScope b0 b1 := rfl

/-- Bytes that are not `0F A2` are not in scope. -/
theorem decode_other {b0 b1 : Byte} (h : ¬(b0 = opcodeByte1 ∧ b1 = opcodeByte2)) (rest : List Byte) :
    decode (b0 :: b1 :: rest) = .notInScope b0 b1 := by rw [decode_two, if_neg h]

/-- `0F A2` is CPUID. -/
theorem decode_cpuid (rest : List Byte) : decode (opcodeByte1 :: opcodeByte2 :: rest) = .instr .cpuid rest := rfl

/-- Fewer than two bytes are too short. -/
theorem decode_short {bytes : List Byte} (h : bytes.length < 2) : decode bytes = .tooShort := by
  match bytes, h with
  | [], _ => rfl
  | [_], _ => rfl

end Sys2Proof
end

