-- ==== Sys2Proof/Laws/State.lean ====
section
/-! SUPPORT. One lemma for each field of State under each update, so that no proof unfolds a record update. -/

namespace Sys2Proof.Machine

variable (s : State)

@[simp] theorem setRegs_cfg (r : Regs) : (s.setRegs r).cfg = s.cfg := rfl
@[simp] theorem setRegs_regs (r : Regs) : (s.setRegs r).regs = r := rfl
@[simp] theorem setRegs_ip (r : Regs) : (s.setRegs r).ip = s.ip := rfl
@[simp] theorem setRegs_eflags21 (r : Regs) : (s.setRegs r).eflags21 = s.eflags21 := rfl
@[simp] theorem setRegs_fault (r : Regs) : (s.setRegs r).fault = s.fault := rfl
@[simp] theorem setRegs_mem (r : Regs) : (s.setRegs r).mem = s.mem := rfl
@[simp] theorem setRegs_draws (r : Regs) : (s.setRegs r).draws = s.draws := rfl

@[simp] theorem setIp_cfg (n : Nat) : (s.setIp n).cfg = s.cfg := rfl
@[simp] theorem setIp_regs (n : Nat) : (s.setIp n).regs = s.regs := rfl
@[simp] theorem setIp_ip (n : Nat) : (s.setIp n).ip = n := rfl
@[simp] theorem setIp_eflags21 (n : Nat) : (s.setIp n).eflags21 = s.eflags21 := rfl
@[simp] theorem setIp_fault (n : Nat) : (s.setIp n).fault = s.fault := rfl
@[simp] theorem setIp_mem (n : Nat) : (s.setIp n).mem = s.mem := rfl
@[simp] theorem setIp_draws (n : Nat) : (s.setIp n).draws = s.draws := rfl

@[simp] theorem setFlag21_cfg (b : Bit) : (s.setFlag21 b).cfg = s.cfg := rfl
@[simp] theorem setFlag21_regs (b : Bit) : (s.setFlag21 b).regs = s.regs := rfl
@[simp] theorem setFlag21_ip (b : Bit) : (s.setFlag21 b).ip = s.ip := rfl
@[simp] theorem setFlag21_eflags21 (b : Bit) : (s.setFlag21 b).eflags21 = b := rfl
@[simp] theorem setFlag21_fault (b : Bit) : (s.setFlag21 b).fault = s.fault := rfl
@[simp] theorem setFlag21_mem (b : Bit) : (s.setFlag21 b).mem = s.mem := rfl
@[simp] theorem setFlag21_draws (b : Bit) : (s.setFlag21 b).draws = s.draws := rfl

@[simp] theorem setFault_cfg (m : FaultMark) : (s.setFault m).cfg = s.cfg := rfl
@[simp] theorem setFault_regs (m : FaultMark) : (s.setFault m).regs = s.regs := rfl
@[simp] theorem setFault_ip (m : FaultMark) : (s.setFault m).ip = s.ip := rfl
@[simp] theorem setFault_eflags21 (m : FaultMark) : (s.setFault m).eflags21 = s.eflags21 := rfl
@[simp] theorem setFault_fault (m : FaultMark) : (s.setFault m).fault = some m := rfl
@[simp] theorem setFault_mem (m : FaultMark) : (s.setFault m).mem = s.mem := rfl
@[simp] theorem setFault_draws (m : FaultMark) : (s.setFault m).draws = s.draws := rfl

@[simp] theorem setText_cfg (base : Nat) (m : Memory) : (s.setText base m).cfg = { s.cfg with codeBase := base } := rfl
@[simp] theorem setText_regs (base : Nat) (m : Memory) : (s.setText base m).regs = s.regs := rfl
@[simp] theorem setText_ip (base : Nat) (m : Memory) : (s.setText base m).ip = s.ip := rfl
@[simp] theorem setText_eflags21 (base : Nat) (m : Memory) : (s.setText base m).eflags21 = s.eflags21 := rfl
@[simp] theorem setText_fault (base : Nat) (m : Memory) : (s.setText base m).fault = s.fault := rfl
@[simp] theorem setText_mem (base : Nat) (m : Memory) : (s.setText base m).mem = m := rfl
@[simp] theorem setText_draws (base : Nat) (m : Memory) : (s.setText base m).draws = s.draws := rfl

@[simp] theorem setDraws_cfg (n : Nat) : (s.setDraws n).cfg = s.cfg := rfl
@[simp] theorem setDraws_regs (n : Nat) : (s.setDraws n).regs = s.regs := rfl
@[simp] theorem setDraws_ip (n : Nat) : (s.setDraws n).ip = s.ip := rfl
@[simp] theorem setDraws_eflags21 (n : Nat) : (s.setDraws n).eflags21 = s.eflags21 := rfl
@[simp] theorem setDraws_fault (n : Nat) : (s.setDraws n).fault = s.fault := rfl
@[simp] theorem setDraws_mem (n : Nat) : (s.setDraws n).mem = s.mem := rfl
@[simp] theorem setDraws_draws (n : Nat) : (s.setDraws n).draws = n := rfl

@[simp] theorem raise_cfg (m : FaultMark) : (raise m s).cfg = s.cfg := rfl
@[simp] theorem raise_regs (m : FaultMark) : (raise m s).regs = s.regs := rfl
@[simp] theorem raise_ip (m : FaultMark) : (raise m s).ip = s.ip := rfl
@[simp] theorem raise_eflags21 (m : FaultMark) : (raise m s).eflags21 = s.eflags21 := rfl
@[simp] theorem raise_fault (m : FaultMark) : (raise m s).fault = some m := rfl
@[simp] theorem raise_mem (m : FaultMark) : (raise m s).mem = s.mem := rfl
@[simp] theorem raise_draws (m : FaultMark) : (raise m s).draws = s.draws := rfl

/-- Reading one register reads the register file. -/
theorem reg_eq (r : Reg) : s.reg r = s.regs.get r := rfl

@[simp] theorem get_eax (g : Regs) : g.get .eax = g.eax := rfl
@[simp] theorem get_ebx (g : Regs) : g.get .ebx = g.ebx := rfl
@[simp] theorem get_ecx (g : Regs) : g.get .ecx = g.ecx := rfl
@[simp] theorem get_edx (g : Regs) : g.get .edx = g.edx := rfl

/-- A byte read depends on memory and on the width of addresses only. -/
theorem memRead_congr {s t : State} (hm : t.mem = s.mem) (hc : t.cfg = s.cfg) (a : Nat) : t.memRead a = s.memRead a := by
  simp [State.memRead, State.addr, hm, hc]

/-- Placing a text changes the base of the text and the bytes, and nothing else. -/
theorem loadText_eq (base : Nat) (code : List Byte) :
    s.loadText base code = s.setText (base % s.cfg.space) (Memory.place s.cfg.space [] base code) := rfl

@[simp] theorem loadText_regs (base : Nat) (code : List Byte) : (s.loadText base code).regs = s.regs := rfl
@[simp] theorem loadText_ip (base : Nat) (code : List Byte) : (s.loadText base code).ip = s.ip := rfl
@[simp] theorem loadText_eflags21 (base : Nat) (code : List Byte) : (s.loadText base code).eflags21 = s.eflags21 := rfl
@[simp] theorem loadText_fault (base : Nat) (code : List Byte) : (s.loadText base code).fault = s.fault := rfl
@[simp] theorem loadText_draws (base : Nat) (code : List Byte) : (s.loadText base code).draws = s.draws := rfl
@[simp] theorem loadText_space (base : Nat) (code : List Byte) : (s.loadText base code).cfg.space = s.cfg.space := rfl

end Sys2Proof.Machine
end

