-- ==== Sys2Proof/Laws/Flags.lean ====
section
/-! SUPPORT. What the flag primitives answer. -/

namespace Sys2Proof.Machine

/-- With EFLAGS, reading gives the bit. -/
theorem readFlag21_ok {s : State} (h : s.cfg.hasEflags = true) : readFlag21 s = .ok s.eflags21 := by simp [readFlag21, h]

/-- Without EFLAGS, reading is refused. -/
theorem readFlag21_refused {s : State} (h : s.cfg.hasEflags = false) : readFlag21 s = .error .noEflags := by
  simp [readFlag21, h]

/-- With CPUID, writing sets the bit. -/
theorem writeFlag21_changeable {s : State} (h : s.cfg.hasEflags = true) (hc : s.cfg.hasCpuid = true) (b : Bit) :
    writeFlag21 b s = .ok (s.setFlag21 b) := by simp [writeFlag21, h, hc]

/-- Without CPUID, the bit reads ID_STUCK whatever was written. -/
theorem writeFlag21_stuck {s : State} (h : s.cfg.hasEflags = true) (hc : s.cfg.hasCpuid = false) (b : Bit) :
    writeFlag21 b s = .ok (s.setFlag21 s.cfg.idStuck) := by simp [writeFlag21, h, hc]

/-- Without EFLAGS, writing is refused. -/
theorem writeFlag21_refused {s : State} (h : s.cfg.hasEflags = false) (b : Bit) : writeFlag21 b s = .error .noEflags := by
  simp [writeFlag21, h]

/-- Setting the flag to what it holds changes nothing. -/
theorem setFlag21_self (s : State) : s.setFlag21 s.eflags21 = s := rfl

@[simp] theorem setFlag21_setFlag21 (s : State) (a b : Bit) : (s.setFlag21 a).setFlag21 b = s.setFlag21 b := rfl

end Sys2Proof.Machine
end

