-- ==== Sys2Proof/Laws/Leaves.lean ====
section
/-! SUPPORT. Which leaves are supported, and what the dispatch gives for each: one lemma a leaf. -/

namespace Sys2Proof.Machine

/-- A basic leaf is supported up to MAX_BASIC. -/
theorem supported_basic (c : Config) {leaf : Word} (h : leaf.getLsbD 31 = false) :
    supported c leaf = decide (leaf ≤ c.maxBasic) := by
  simp only [supported, h]
  simp

/-- An extended leaf is supported up to MAX_EXT, where there are extended leaves. -/
theorem supported_ext (c : Config) {leaf : Word} (h : leaf.getLsbD 31 = true) :
    supported c leaf = (c.hasExt && decide (leaf ≤ c.maxExt)) := by
  simp only [supported, h]
  simp

/-- Leaf 0 is supported on every processor with CPUID. -/
theorem supported_zero (c : Config) : supported c 0#32 = true := by
  rw [supported_basic c (by decide)]
  exact decide_eq_true (BitVec.le_def.2 (Nat.zero_le _))

section
variable (c : Config) (any : Quad)

theorem leafValue_unsupported {leaf : Word} (h : supported c leaf = false) : leafValue c leaf any = any := by
  unfold leafValue
  rw [h]
  rfl

theorem leafValue_0 : leafValue c 0#32 any = leaf0 c := by
  unfold leafValue
  rw [supported_zero]
  rfl

theorem leafValue_1 (h : supported c 1#32 = true) : leafValue c 1#32 any = leaf1 c := by
  unfold leafValue
  rw [h]
  rfl

theorem leafValue_2 (h : supported c 2#32 = true) : leafValue c 2#32 any = c.leaf2 := by
  unfold leafValue
  rw [h]
  rfl

theorem leafValue_3 (h : supported c 3#32 = true) : leafValue c 3#32 any = leaf3 c any := by
  unfold leafValue
  rw [h]
  rfl

theorem leafValue_ext0 (h : supported c 0x80000000#32 = true) : leafValue c 0x80000000#32 any = leafExt0 c any := by
  unfold leafValue
  rw [h]
  rfl

theorem leafValue_ext1 (h : supported c 0x80000001#32 = true) : leafValue c 0x80000001#32 any = leafExt1 c any := by
  unfold leafValue
  rw [h]
  rfl

theorem leafValue_ext2 (h : supported c 0x80000002#32 = true) : leafValue c 0x80000002#32 any = leafBrand c 0 := by
  unfold leafValue
  rw [h]
  rfl

theorem leafValue_ext3 (h : supported c 0x80000003#32 = true) : leafValue c 0x80000003#32 any = leafBrand c 1 := by
  unfold leafValue
  rw [h]
  rfl

theorem leafValue_ext4 (h : supported c 0x80000004#32 = true) : leafValue c 0x80000004#32 any = leafBrand c 2 := by
  unfold leafValue
  rw [h]
  rfl

theorem leafValue_ext5 : leafValue c 0x80000005#32 any = any := by simp [leafValue, leafUnsupported, leafReserved]

theorem leafValue_ext6 (h : supported c 0x80000006#32 = true) : leafValue c 0x80000006#32 any = leafExt6 c any := by
  unfold leafValue
  rw [h]
  rfl

theorem leafValue_ext7 : leafValue c 0x80000007#32 any = any := by simp [leafValue, leafUnsupported, leafReserved]

theorem leafValue_ext8 (h : supported c 0x80000008#32 = true) : leafValue c 0x80000008#32 any = leafExt8 c any := by
  unfold leafValue
  rw [h]
  rfl

end

/-- The bytes of a packed word are the packed bytes, in order (00_scope.md R12). -/
@[simp] theorem unpack4_pack4 (b0 b1 b2 b3 : Byte) : unpack4 (pack4 b0 b1 b2 b3) = [b0, b1, b2, b3] := by
  have h (k n : Nat) (x : Word) (y : BitVec n) (hy : ∀ i, i < n → x.getLsbD (k + i) = y.getLsbD i) :
      x.extractLsb' k n = y := by
    apply BitVec.eq_of_getLsbD_eq
    intro i hi
    rw [BitVec.getLsbD_extractLsb', hy i hi]
    simp [hi]
  simp only [unpack4, List.cons.injEq, and_true]
  refine ⟨h 0 8 _ _ ?_, h 8 8 _ _ ?_, h 16 8 _ _ ?_, h 24 8 _ _ ?_⟩ <;> intro i hi <;>
    simp only [pack4, BitVec.getLsbD_append] <;> grind

end Sys2Proof.Machine
end

