-- ==== Sys2Proof/Laws/Ops.lean ====
section
/-! SUPPORT. What the operations over memory do, and that each keeps the canonical form; what `fetch` can give. -/

namespace Sys2Proof.Machine

@[simp] theorem read_nil (a : Nat) : Memory.read [] a = none := rfl

@[simp] theorem read_cons (c : Host.Cell) (m : Memory) (a : Nat) :
    Memory.read (c :: m) a = if c.1 = a then some c.2 else Memory.read m a := rfl

/-- A write leaves its byte where it was made. -/
@[simp] theorem read_write_same (m : Memory) (a : Nat) (b : Byte) : Memory.read (m.write a b) a = some b := by
  induction m with
  | nil => simp [Memory.write]
  | cons c rest ih =>
    simp only [Memory.write]
    split
    · simp
    · split
      · simp
      · rename_i _ hne
        simp [ih, Ne.symm hne]

/-- A write leaves every other address alone. -/
theorem read_write_other (m : Memory) {a x : Nat} (b : Byte) (h : x ≠ a) :
    Memory.read (m.write a b) x = Memory.read m x := by
  induction m with
  | nil => simp [Memory.write, Ne.symm h]
  | cons c rest ih =>
    simp only [Memory.write]
    split
    · simp [Ne.symm h]
    · split
      · rename_i heq
        simp [← heq, Ne.symm h]
      · simp [ih]

/-- Every cell after a write is the written one or was there before. -/
theorem mem_write {m : Memory} {a : Nat} {b : Byte} {d : Host.Cell} (h : d ∈ m.write a b) : d = (a, b) ∨ d ∈ m := by
  induction m with
  | nil => simpa [Memory.write] using h
  | cons c rest ih =>
    simp only [Memory.write] at h
    split at h
    · simpa using h
    · split at h
      · rcases List.mem_cons.1 h with h | h
        · exact .inl h
        · exact .inr (List.mem_cons_of_mem _ h)
      · rcases List.mem_cons.1 h with h | h
        · exact .inr (h ▸ List.mem_cons_self ..)
        · exact (ih h).imp id (List.mem_cons_of_mem _)

/-- A write keeps the canonical form. -/
theorem write_wf {m : Memory} (h : Memory.wf m) (a : Nat) (b : Byte) : Memory.wf (m.write a b) := by
  induction m with
  | nil => simp [Memory.write]
  | cons c rest ih =>
    obtain ⟨hc, hrest⟩ := List.pairwise_cons.1 h
    simp only [Memory.write]
    split
    · rename_i hlt
      refine List.pairwise_cons.2 ⟨fun d hd => ?_, h⟩
      rcases List.mem_cons.1 hd with hd | hd
      · simpa [hd] using hlt
      · exact Nat.lt_trans hlt (hc d hd)
    · split
      · rename_i heq
        exact List.pairwise_cons.2 ⟨fun d hd => by simpa [heq] using hc d hd, hrest⟩
      · refine List.pairwise_cons.2 ⟨fun d hd => ?_, ih hrest⟩
        rcases mem_write hd with hd | hd
        · simp only [hd]
          omega
        · exact hc d hd

/-- Placing bytes keeps the canonical form. -/
theorem place_wf (space : Nat) {m : Memory} (h : Memory.wf m) (a : Nat) (bs : List Byte) :
    Memory.wf (Memory.place space m a bs) := by
  induction bs generalizing m a with
  | nil => exact h
  | cons b bs ih => exact ih (write_wf h _ _) _

/-- The text a state is given is in canonical form. -/
theorem loadText_wf (s : State) (base : Nat) (code : List Byte) : Memory.wf (s.loadText base code).mem :=
  place_wf _ List.Pairwise.nil _ _

/-- The text of a launch state is in canonical form. -/
theorem launch_wf (c : Config) (code : List Byte) (r : Regs) (flag : Bit) (draws : Nat) :
    Memory.wf (State.launch c code r flag draws).mem :=
  place_wf _ List.Pairwise.nil _ _

/-- The memory of a state after reset is in canonical form. -/
theorem resetWith_wf (c : Config) : Memory.wf (State.resetWith c).mem := List.Pairwise.nil

/-- Writing to an address that is not listed adds one cell, and writing to one that is listed adds none. -/
theorem length_write {m : Memory} (h : Memory.wf m) (a : Nat) (b : Byte) :
    (m.write a b).length = if (Memory.read m a).isSome then m.length else m.length + 1 := by
  induction m with
  | nil => simp [Memory.write]
  | cons c rest ih =>
    obtain ⟨hc, hrest⟩ := List.pairwise_cons.1 h
    simp only [Memory.write]
    split
    · rename_i hlt
      have hnone : ∀ l : Memory, (∀ d ∈ l, a < d.1) → Memory.read l a = none := by
        intro l
        induction l with
        | nil => intro _; rfl
        | cons d l ihl =>
          intro hl
          have hd := hl d (List.mem_cons_self ..)
          simp [Nat.ne_of_gt hd, ihl fun e he => hl e (List.mem_cons_of_mem _ he)]
      have hr : Memory.read (c :: rest) a = none := hnone _ fun d hd => by
        rcases List.mem_cons.1 hd with hd | hd
        · simpa [hd] using hlt
        · exact Nat.lt_trans hlt (hc d hd)
      simp [hr]
    · split
      · rename_i heq
        simp [heq]
      · rename_i _ hne
        simp only [List.length_cons, ih hrest, read_cons, if_neg (Ne.symm hne)]
        split <;> rfl

/-- Taking a number below twice the modulus modulo it. -/
theorem mod_lt_twice {n space : Nat} (h : n < 2 * space) : n % space = if n < space then n else n - space := by
  split
  · exact Nat.mod_eq_of_lt ‹_›
  · rw [Nat.mod_eq_sub_mod (by omega), Nat.mod_eq_of_lt (by omega)]

/-- The next address, modulo the size of the space. -/
theorem succ_mod {a space : Nat} (h : 0 < space) :
    (a + 1) % space = if a % space + 1 < space then a % space + 1 else a % space + 1 - space := by
  have := Nat.mod_lt a h
  rw [← mod_lt_twice (by omega), Nat.mod_add_mod]

/-- Bytes that fit the space read back at their addresses, and every other address reads as before. -/
theorem read_place {space : Nat} (bs : List Byte) (m : Memory) (a x : Nat) (hx : x < space) (hl : bs.length ≤ space) :
    Memory.read (Memory.place space m a bs) x =
      if h : (x + space - a % space) % space < bs.length then some bs[(x + space - a % space) % space]
      else Memory.read m x := by
  induction bs generalizing m a with
  | nil => simp [Memory.place]
  | cons b bs ih =>
    simp only [List.length_cons] at hl
    rw [Memory.place, ih _ _ (by omega)]
    have ha := Nat.mod_lt a (show space > 0 by omega)
    have ha1 := Nat.mod_lt (a + 1) (show space > 0 by omega)
    have e1 := succ_mod (a := a) (space := space) (by omega)
    have e0 := mod_lt_twice (n := x + space - a % space) (space := space) (by omega)
    have e2 := mod_lt_twice (n := x + space - (a + 1) % space) (space := space) (by omega)
    generalize (x + space - a % space) % space = p at *
    generalize (x + space - (a + 1) % space) % space = q at *
    by_cases hxa : x = a % space
    · have hp : p = 0 := by split at e0 <;> omega
      have hq : ¬q < bs.length := by split at e0 <;> split at e1 <;> split at e2 <;> omega
      rw [dif_neg hq]
      subst hxa
      simp [hp]
    · have hpq : p = q + 1 := by split at e0 <;> split at e1 <;> split at e2 <;> omega
      rw [read_write_other _ _ hxa]
      simp [hpq]

/-- Bytes placed on addresses that were not listed, and that fit the space, add one cell each. -/
theorem length_place {space : Nat} (bs : List Byte) (m : Memory) (a : Nat) (hw : Memory.wf m) (hl : bs.length ≤ space)
    (hn : ∀ j, j < bs.length → Memory.read m ((a + j) % space) = none) :
    (Memory.place space m a bs).length = m.length + bs.length := by
  induction bs generalizing m a with
  | nil => simp [Memory.place]
  | cons b bs ih =>
    simp only [List.length_cons] at hl
    have h0 : Memory.read m (a % space) = none := by simpa using hn 0 (by simp)
    rw [Memory.place, ih _ _ (write_wf hw _ _) (by omega), length_write hw, h0]
    · simp only [Option.isSome_none, Bool.false_eq_true, if_false, List.length_cons]
      omega
    · intro j hj
      rw [read_write_other]
      · have := hn (j + 1) (by simpa using hj)
        rwa [show a + (j + 1) = a + 1 + j by omega] at this
      · intro he
        have hm : a + (1 + j) ≡ a + 0 [MOD space] := by
          simpa [Nat.ModEq, show a + (1 + j) = a + 1 + j by omega] using he
        have h1 : (1 + j) % space = 0 := by simpa [Nat.ModEq] using Nat.ModEq.add_left_cancel' a hm
        rw [Nat.mod_eq_of_lt (by omega)] at h1
        omega

/-- Placed bytes stand in the address space. -/
theorem place_inSpace {space : Nat} (hs : 0 < space) (bs : List Byte) (m : Memory) (a : Nat) (h : ∀ c ∈ m, c.1 < space) :
    ∀ c ∈ Memory.place space m a bs, c.1 < space := by
  induction bs generalizing m a with
  | nil => exact h
  | cons b bs ih =>
    refine ih _ _ fun c hc => ?_
    rcases mem_write hc with rfl | hc
    · exact Nat.mod_lt _ hs
    · exact h c hc

/-- What fetching can give: two bytes, both read, or the first address whose read is not admitted. -/
theorem fetch_cases (s : State) :
    (∃ b0 b1, fetch s = .bytes b0 b1 ∧ s.memRead s.ip = some b0 ∧ s.memRead (s.ip + 1) = some b1) ∨
    (fetch s = .outside (s.addr s.ip) ∧ s.memRead s.ip = none) ∨
    (∃ b0, fetch s = .outside (s.addr (s.ip + 1)) ∧ s.memRead s.ip = some b0 ∧ s.memRead (s.ip + 1) = none) := by
  unfold fetch
  cases h0 : s.memRead s.ip with
  | none => exact .inr (.inl ⟨rfl, rfl⟩)
  | some b0 =>
    cases h1 : s.memRead (s.ip + 1) with
    | none => exact .inr (.inr ⟨b0, rfl, rfl, rfl⟩)
    | some b1 => exact .inl ⟨b0, b1, rfl, rfl, rfl⟩

end Sys2Proof.Machine
end

