-- ==== Sys2Proof/Laws/PerInstr.lean ====
section
/-! SUPPORT. Statements about every instruction as syntax, one lemma for each constructor. -/

namespace Sys2Proof.Laws.EncodedLength

/-- A well-formed instruction is encoded in as many bytes as its length says (30_encoding.md R61). -/
def Statement (i : Instr) : Prop := i.wf = true → (encode i).length = i.length

theorem cpuid : Statement .cpuid := fun _ => rfl

end Sys2Proof.Laws.EncodedLength
end

