-- ==== Sys2Proof/Laws/Step.lean ====
section
/-! SUPPORT. What CPUID can do and what a step can do, each said once. -/

namespace Sys2Proof.Machine

/-- CPUID on a processor without it. -/
theorem cpuidWith_absent {s : State} (h : s.cfg.hasCpuid = false) (any : Quad) (keep : Keep) :
    cpuidWith any keep s = raise (.undefinedOpcode s.ip) s := by
  simp [cpuidWith, h]

/-- CPUID with no value in EAX. -/
theorem cpuidWith_unwritten {s : State} (h : s.cfg.hasCpuid = true) (he : s.reg .eax = .noValue) (any : Quad) (keep : Keep) :
    cpuidWith any keep s = raise (.unwrittenRegister .eax) s := by
  have he : s.regs.eax = .noValue := he
  simp [cpuidWith, h, he]

/-- CPUID where it executes normally. -/
theorem cpuidWith_held {s : State} {leaf : Word} (h : s.cfg.hasCpuid = true) (he : s.reg .eax = .held leaf) (any : Quad)
    (keep : Keep) : cpuidWith any keep s = cpuidComplete any keep leaf s := by
  have he : s.regs.eax = .held leaf := he
  simp [cpuidWith, h, he]

/-- Everything CPUID can do: one of the two faults, or it completes. -/
theorem cpuidWith_cases (any : Quad) (keep : Keep) (s : State) :
    (s.cfg.hasCpuid = false ∧ cpuidWith any keep s = raise (.undefinedOpcode s.ip) s) ∨
    (s.cfg.hasCpuid = true ∧ s.reg .eax = .noValue ∧ cpuidWith any keep s = raise (.unwrittenRegister .eax) s) ∨
    (∃ leaf, s.cfg.hasCpuid = true ∧ s.reg .eax = .held leaf ∧ cpuidWith any keep s = cpuidComplete any keep leaf s) := by
  cases h : s.cfg.hasCpuid with
  | false => exact .inl ⟨rfl, cpuidWith_absent h any keep⟩
  | true =>
    cases he : s.reg .eax with
    | noValue => exact .inr (.inl ⟨rfl, rfl, cpuidWith_unwritten h he any keep⟩)
    | held leaf => exact .inr (.inr ⟨leaf, rfl, rfl, cpuidWith_held h he any keep⟩)

section
variable (any : Quad) (keep : Keep) (leaf : Word) (s : State)

@[simp] theorem cpuidComplete_cfg : (cpuidComplete any keep leaf s).cfg = s.cfg := rfl
@[simp] theorem cpuidComplete_eflags21 : (cpuidComplete any keep leaf s).eflags21 = s.eflags21 := rfl
@[simp] theorem cpuidComplete_fault : (cpuidComplete any keep leaf s).fault = s.fault := rfl
@[simp] theorem cpuidComplete_mem : (cpuidComplete any keep leaf s).mem = s.mem := rfl
@[simp] theorem cpuidComplete_ip : (cpuidComplete any keep leaf s).ip = (s.ip + 2) % s.cfg.space := rfl
@[simp] theorem cpuidComplete_draws : (cpuidComplete any keep leaf s).draws = s.draws + 4 := rfl
@[simp] theorem cpuidComplete_eax :
    (cpuidComplete any keep leaf s).reg .eax = .held (leafValue s.cfg leaf any).eax := rfl
@[simp] theorem cpuidComplete_edx :
    (cpuidComplete any keep leaf s).reg .edx = .held (leafValue s.cfg leaf any).edx := rfl
@[simp] theorem cpuidComplete_ebx : (cpuidComplete any keep leaf s).reg .ebx =
    keepOrWrite ((s.cfg.keepsEbxEcx && decide (0 < leaf)) && keep.ebx) (s.reg .ebx) (leafValue s.cfg leaf any).ebx := rfl
@[simp] theorem cpuidComplete_ecx : (cpuidComplete any keep leaf s).reg .ecx =
    keepOrWrite ((s.cfg.keepsEbxEcx && decide (0 < leaf)) && keep.ecx) (s.reg .ecx) (leafValue s.cfg leaf any).ecx := rfl

end

/-- CPUID answers a next state always: where it faults, that state carries the mark. -/
theorem execCpuid_eq (s : State) : execCpuid s = .next (cpuidWith (freshQuad s.draws) (freshKeep s.draws) s) := rfl

/-- Everything a step that answers a next state has done: there was no mark, the run was not over, the two bytes were in
the text and decoded, and the instruction ran. -/
theorem step_next {s t : State} (h : step s = .next t) :
    s.fault = none ∧ s.atEnd = false ∧
      ∃ b0 b1 i rest, fetch s = .bytes b0 b1 ∧ decode [b0, b1] = .instr i rest ∧ exec i s = .next t := by
  unfold step at h
  split at h
  · cases h
  · split at h
    · cases h
    · rename_i hf he
      split at h
      · cases h
      · rename_i b0 b1 hb
        split at h
        · rename_i i rest hd
          exact ⟨hf, by simpa using he, b0, b1, i, rest, hb, hd, h⟩
        · cases h
        · cases h

/-- Everything a step can do. -/
theorem step_cases (s : State) :
    (∃ m, s.fault = some m ∧ step s = .fault (.halted m)) ∨
    (s.fault = none ∧ s.atEnd = true ∧ step s = .refused .endOfRun) ∨
    (∃ a, s.fault = none ∧ s.atEnd = false ∧ fetch s = .outside a ∧ step s = .fault (.fetchOutsideText a)) ∨
    (∃ b0 b1, s.fault = none ∧ s.atEnd = false ∧ fetch s = .bytes b0 b1 ∧ decode [b0, b1] = .notInScope b0 b1 ∧
      step s = .refused (.notInScope s.ip b0 b1)) ∨
    (∃ b0 b1 i, s.fault = none ∧ s.atEnd = false ∧ fetch s = .bytes b0 b1 ∧ decode [b0, b1] = .instr i [] ∧
      step s = exec i s) := by
  cases hf : s.fault with
  | some m => exact .inl ⟨m, rfl, by simp [step, hf]⟩
  | none =>
    cases he : s.atEnd with
    | true => exact .inr (.inl ⟨rfl, rfl, by simp [step, hf, he]⟩)
    | false =>
      cases hb : fetch s with
      | outside a => exact .inr (.inr (.inl ⟨a, rfl, rfl, rfl, by simp [step, hf, he, hb]⟩))
      | bytes b0 b1 =>
        by_cases hd : b0 = opcodeByte1 ∧ b1 = opcodeByte2
        · have hd : decode [b0, b1] = .instr .cpuid [] := by simp [decode, hd]
          exact .inr (.inr (.inr (.inr ⟨b0, b1, .cpuid, rfl, rfl, rfl, hd, by simp [step, hf, he, hb, hd]⟩)))
        · have hd : decode [b0, b1] = .notInScope b0 b1 := by simp [decode, hd]
          exact .inr (.inr (.inr (.inl ⟨b0, b1, rfl, rfl, rfl, hd, by simp [step, hf, he, hb, hd]⟩)))

end Sys2Proof.Machine
end

