-- ==== Sys2Proof/Tests/Slice0.lean ====
section
/-! SUPPORT. The model's own tests. Expected results are those of spec/95_test_vectors.md (V1 to V124), derived there from
the rules, not from this model. The theorems named witness_ show states and operands that meet the hypotheses of the
statement of that name. -/

namespace Sys2Proof.Tests

open Sys2Proof Sys2Proof.Machine

/-! ## The configurations of 95_test_vectors.md section 2.1 -/

/-- CFG-B. -/
def cfgB : Config :=
  { Config.cfgA with
    vendor := vendorAuthenticAMD, stepping := 3, model := 4, family := 15, extFamily := 1, leaf1Ebx := 0x800
    feat1Edx := 0x0783F3FF, feat1Ecx := 1, maxExt := 0x80000008, extFeatEdx := 0xE1D3FBFF, extFeatEcx := 1
    brand := #v[0x45, 0x78, 0x61, 0x6D, 0x70, 0x6C, 0x65, 0x28, 0x52, 0x29, 0x20, 0x43, 0x50, 0x55, 0x20, 0x4D,
                0x6F, 0x64, 0x65, 0x6C, 0x20, 0x42, 0x2D, 0x34, 0x38, 0x30, 0x30, 0x20, 0x50, 0x72, 0x6F, 0x63,
                0x65, 0x73, 0x73, 0x6F, 0x72, 0x20, 0x40, 0x20, 0x32, 0x2E, 0x34, 0x30, 0x47, 0x48, 0x7A, 0x00]
    l2Info := 0x02006140, addrSizes := 0x00003028, mode64 := true }

/-- CFG-C: EFLAGS and no CPUID. -/
def cfgC : Config := { Config.cfgA with hasCpuid := false, idStuck := 0, resetDx := 0x0308 }

/-- CFG-D: the behaviour of note 1, vendor "ExampleOldCo". -/
def cfgD : Config :=
  { Config.cfgA with
    keepsEbxEcx := true, feat1Ecx := 1
    vendor := #v[0x45, 0x78, 0x61, 0x6D, 0x70, 0x6C, 0x65, 0x4F, 0x6C, 0x64, 0x43, 0x6F] }

/-- The processor that a layout of the serial number belongs to (41_cpuid_basic_leaves.md R122). -/
def productOf : PsnLayout → Product
  | .none => .other
  | .pentium3 => .pentium3
  | .efficeon => .efficeon
  | .crusoe => .crusoe

/-- CFG-E, with a layout for the serial number and its processor. -/
def cfgE (l : PsnLayout) : Config :=
  { Config.cfgA with
    maxBasic := 3, feat1Edx := 0x00848131, psnEnabled := true, psn := 0x0123456789ABCDEF, psnLayout := l, product := productOf l
    leaf2 := ⟨0x03020101, 0, 0, 0x0C040843⟩ }

/-- A Pentium Pro, the signature of V53. -/
def cfgPentiumPro : Config := { Config.cfgA with stepping := 9, model := 1, feat1Edx := 0x00808931 }

/-- CFG-A with a 4-bit instruction pointer, so that every address can be tried. -/
def cfgSmall : Config := { Config.cfgA with ipWidth := 4, codeBase := 15 }

/-- A launch state with the text `0F A2`, a leaf in EAX and no value in the other registers. -/
def start (c : Config) (leaf : Word) : State := State.launch c [0x0F, 0xA2] ⟨.held leaf, .noValue, .noValue, .noValue⟩ 0 0

/-- The same with values in EBX and ECX. -/
def startWith (c : Config) (leaf b cc : Word) : State :=
  State.launch c [0x0F, 0xA2] ⟨.held leaf, .held b, .held cc, .noValue⟩ 0 0

/-- The registers after CPUID. -/
def after (s : State) : Regs :=
  match exec .cpuid s with
  | .next t => t.regs
  | .fault _ => s.regs
  | .refused _ => s.regs

/-! ## Decoding: V20 to V28 -/

theorem test_decode_cpuid : decode [0x0F, 0xA2] = .instr .cpuid [] := by decide
theorem test_decode_rest : decode [0x0F, 0xA2, 0x0F, 0xA2] = .instr .cpuid [0x0F, 0xA2] := by decide
theorem test_decode_refused : decode [0xA2, 0x0F] = .notInScope 0xA2 0x0F ∧ decode [0x0F, 0xA3] = .notInScope 0x0F 0xA3 ∧
    decode [0x66, 0x0F, 0xA2] = .notInScope 0x66 0x0F ∧ decode [0x0F] = .tooShort := by decide
theorem test_table_word : decodeTableWord 16 0xA20F = some .cpuid ∧ decodeTableWord 16 0x0FA2 = none := by decide
theorem test_encode : encode .cpuid = [0x0F, 0xA2] := by decide

/-! ## What a model rejects: V58 to V67, and the other constraints -/

theorem test_wf_vector_configurations : Config.cfgA.wf = true ∧ cfgB.wf = true ∧ cfgC.wf = true ∧ cfgD.wf = true ∧
    (cfgE .pentium3).wf = true ∧ (cfgE .efficeon).wf = true ∧ (cfgE .crusoe).wf = true ∧ cfgPentiumPro.wf = true ∧ cfgSmall.wf = true := by decide
theorem test_wf_instr : Instr.wf .cpuid = true := by decide
theorem test_refuses_cpuid_without_eflags : Config.wf { Config.cfgA with hasEflags := false } = false := by decide
theorem test_refuses_narrow_ip : Config.wf { Config.cfgA with ipWidth := 1 } = false := by decide
theorem test_refuses_base_outside_space : Config.wf { Config.cfgA with codeBase := 0x100000000 } = false := by decide
theorem test_refuses_basic_maximum : Config.wf { Config.cfgA with maxBasic := 0x80000000 } = false := by decide
theorem test_refuses_extended_maximum : Config.wf { Config.cfgA with maxExt := 8 } = false := by decide
theorem test_refuses_hypervisor_bit : Config.wf { Config.cfgA with feat1Ecx := 0x80000000 } = false ∧
    Config.wf { Config.cfgA with hypervisor := true } = false := by decide
theorem test_refuses_psn_bit : Config.wf { Config.cfgA with feat1Edx := 0x00848131 } = false := by decide
theorem test_refuses_amd_psn : Config.wf { cfgB with psnLayout := .pentium3 } = false := by decide
theorem test_refuses_layout_of_another_product : Config.wf { cfgE .pentium3 with product := .other } = false ∧
    Config.wf { cfgE .efficeon with product := .crusoe } = false ∧
    Config.wf { cfgE .crusoe with product := .pentium3 } = false := by decide
theorem test_refuses_pentium3_of_another_vendor :
    Config.wf { cfgE .pentium3 with vendor := cfgD.vendor } = false := by decide
theorem test_refuses_amd_dup : Config.wf { cfgB with extFeatEdx := 0xE1D3FBFE } = false := by decide
theorem test_refuses_intel_syscall : Config.wf { Config.cfgA with extFeatEdx := 0x800 } = false := by decide
theorem test_refuses_brand_without_nul : Config.wf { Config.cfgA with brand := Vector.replicate 48 0x41 } = false := by decide
theorem test_refuses_pentium_pro_without_sep : Config.wf { cfgPentiumPro with feat1Edx := 0x00808131 } = false := by decide

/-! ## CPUID: the leaf vectors -/

/-- V1, V2, V54, V55, V9, V10, V70 and V71 (the named registers); V3 and one of the four states of V111. -/
theorem test_cpuid_basic_leaves :
    after (start Config.cfgA 0) = ⟨.held 1, .held 0x756E6547, .held 0x6C65746E, .held 0x49656E69⟩ ∧
    after (start cfgB 0) = ⟨.held 1, .held 0x68747541, .held 0x444D4163, .held 0x69746E65⟩ ∧
    after (start Config.cfgA 1) = ⟨.held 0x633, .held 0, .held 0, .held 0x00808131⟩ ∧
    after (start cfgB 1) = ⟨.held 0x00100F43, .held 0x800, .held 1, .held 0x0783F3FF⟩ ∧
    after (start (cfgE .pentium3) 2) = ⟨.held 0x03020101, .held 0, .held 0, .held 0x0C040843⟩ ∧
    (after (start (cfgE .pentium3) 3)).ecx = .held 0x89ABCDEF ∧ (after (start (cfgE .pentium3) 3)).edx = .held 0x01234567 ∧
    (after (start (cfgE .efficeon) 3)).eax = .held 0x89ABCDEF ∧ (after (start (cfgE .efficeon) 3)).ebx = .held 0x01234567 ∧
    (after (start (cfgE .crusoe) 3)).ebx = .held 0x89ABCDEF ∧
    after (startWith cfgD 0 0x11111111 0x22222222) =
      ⟨.held 1, .held 0x6D617845, .held 0x6F43646C, .held 0x4F656C70⟩ ∧
    (cpuidWith ⟨0, 0, 0, 0⟩ ⟨true, false⟩ (startWith cfgD 1 0x11111111 0x22222222)).regs =
      ⟨.held 0x633, .held 0x11111111, .held 1, .held 0x00808131⟩ := by decide

/-- V11, V12, V13, V13b, V13c, V91, V14 and V14b (the named registers). -/
theorem test_cpuid_extended_leaves :
    (after (start cfgB 0x80000000)).eax = .held 0x80000008 ∧
    (after (start cfgB 0x80000001)).ecx = .held 1 ∧ (after (start cfgB 0x80000001)).edx = .held 0xE1D3FBFF ∧
    after (start cfgB 0x80000002) = ⟨.held 0x6D617845, .held 0x28656C70, .held 0x43202952, .held 0x4D205550⟩ ∧
    after (start cfgB 0x80000003) = ⟨.held 0x6C65646F, .held 0x342D4220, .held 0x20303038, .held 0x636F7250⟩ ∧
    after (start cfgB 0x80000004) = ⟨.held 0x6F737365, .held 0x20402072, .held 0x30342E32, .held 0x007A4847⟩ ∧
    after (start Config.cfgA 0x80000003) = ⟨.held 0x0041206C, .held 0, .held 0, .held 0⟩ ∧
    (after (start cfgB 0x80000006)).ecx = .held 0x02006140 ∧
    (after (start cfgB 0x80000008)).eax = .held 0x00003028 := by decide

/-! ## The other operations -/

/-- V5 to V8, V50, V51: the display arithmetic on the printed signatures. -/
theorem test_display :
    displayFamily 0x633 = 6 ∧ displayModel 0x633 = 3 ∧ displayFamily 0x00100F43 = 16 ∧ displayModel 0x000306A9 = 58 ∧
    displayFamily 0x0FFF3FFF = 270 ∧ displayModel 0x0FFF3FFF = 255 ∧
    signature { Config.cfgA with stepping := 0, model := 0, family := 0, sigRsvd := 53 } = 0x5000C000 := by decide

/-- V100 to V108: the range rule of CFG-B. -/
theorem test_supported : supported cfgB 0 = true ∧ supported cfgB 1 = true ∧ supported cfgB 2 = false ∧
    supported cfgB 0x7FFFFFFF = false ∧ supported cfgB 0x80000000 = true ∧ supported cfgB 0x80000008 = true ∧
    supported cfgB 0x80000009 = false ∧ supported cfgB 0xFFFFFFFF = false ∧ supported cfgB 0x40000000 = false := by decide

/-- V120 to V124: the detection procedure. -/
theorem test_detection : detectCpuid (start Config.cfgA 0) = .ok (true, start Config.cfgA 0) ∧
    detectCpuid (start cfgC 0) = .ok (false, start cfgC 0) ∧
    detectCpuid (start { cfgC with idStuck := 1 } 0) = .ok (false, start { cfgC with idStuck := 1 } 0) ∧
    detectCpuid (start { cfgC with hasEflags := false } 0) = .error .noEflags := by decide

/-- V32 and V33: the text wraps round the top of the address space. -/
theorem test_text_wraps : (start { Config.cfgA with codeBase := 0xFFFFFFFF } 0).memRead 0xFFFFFFFF = some 0x0F ∧
    (start { Config.cfgA with codeBase := 0xFFFFFFFF } 0).memRead 0 = some 0xA2 ∧
    (start { Config.cfgA with codeBase := 0xFFFFFFFF } 0).textEnd = 1 ∧
    (start { Config.cfgA with codeBase := 0xFFFFFFFE } 0).textEnd = 0 := by decide

/-- The host's word runs as the first instruction after reset. -/
theorem test_fetch_word_runs :
    step (State.reset.withFetchWord 16 0xA20F) = exec .cpuid (State.reset.withFetchWord 16 0xA20F) := by rfl

/-! ## Witnesses: the step -/

/-- The text `0F A2 0F` of V42, with leaf 0 in EAX, at an offset from the base. -/
def textAt (code : List Byte) (offset : Nat) : State :=
  (State.launch cfgSmall code ⟨.held 0, .noValue, .noValue, .noValue⟩ 0 0).setIp ((15 + offset) % 16)

/-- A state whose fault mark is set. -/
def marked : State := raise (.undefinedOpcode 0) (start cfgC 0)

/-- A launch state of a processor with CPUID in which EAX holds no value. -/
def unwritten : State := State.launch cfgSmall [0x0F, 0xA2] ⟨.noValue, .held 7, .noValue, .noValue⟩ 1 0

/-- A small processor without CPUID. -/
def cfgSmallAbsent : Config := { cfgC with ipWidth := 4, codeBase := 15, idStuck := 1 }

/-- The second clause: bytes that begin with no encoding. -/
theorem witness_DecodeInvertsEncode : 2 ≤ [(0xA2 : Byte), 0x0F].length ∧
    ∀ (i : Instr) (rest : List Byte), [0xA2, 0x0F] ≠ encode i ++ rest :=
  ⟨by decide, fun i _ h => by cases i; exact absurd (List.cons.inj h).1 (by decide)⟩

theorem witness_StepRunsDecodedInstruction : (start Config.cfgA 0).fault = none ∧ (start Config.cfgA 0).atEnd = false ∧
    (start Config.cfgA 0).memRead (start Config.cfgA 0).ip = some 0x0F ∧
    (start Config.cfgA 0).memRead ((start Config.cfgA 0).ip + 1) = some 0xA2 ∧
    decode [0x0F, 0xA2] = .instr .cpuid [] := by decide

/-- Both clauses: a word that decodes and one that does not, at the narrowest `ip` the spec allows. -/
theorem witness_PlacedWordIsWhatStepRuns : 2 ≤ Config.ipWidth { cfgSmall with ipWidth := 2 } ∧
    (start { cfgSmall with ipWidth := 2, codeBase := 3 } 0).fault = none ∧
    decodeTableWord 16 0xA20F = some .cpuid ∧ decodeTableWord 16 0x0FA2 = none ∧ decodeTableWord 16 0 = none := by decide

theorem witness_MarkedStateHasNoStep : marked.fault = some (.undefinedOpcode 0) := by decide

/-- V40, and the empty text after reset. -/
theorem witness_EndOfTextEndsTheRun : (textAt [0x0F, 0xA2] 2).fault = none ∧
    (textAt [0x0F, 0xA2] 2).ip % 2 ^ (textAt [0x0F, 0xA2] 2).cfg.ipWidth =
      ((textAt [0x0F, 0xA2] 2).cfg.codeBase + List.length (textAt [0x0F, 0xA2] 2).mem) %
        2 ^ (textAt [0x0F, 0xA2] 2).cfg.ipWidth ∧ State.reset.atEnd = true := by decide

/-- V41 (the first byte is outside the text), V39 and V42 (the second is). -/
theorem witness_FetchOutsideTextIsStuck :
    ((textAt [0x0F, 0xA2] 3).fault = none ∧ (textAt [0x0F, 0xA2] 3).atEnd = false ∧
      (textAt [0x0F, 0xA2] 3).memRead (textAt [0x0F, 0xA2] 3).ip = none ∧ (textAt [0x0F, 0xA2] 3).isStuck = true) ∧
    ((textAt [0x0F, 0xA2] 1).fault = none ∧ (textAt [0x0F, 0xA2] 1).atEnd = false ∧
      (textAt [0x0F, 0xA2] 1).memRead (textAt [0x0F, 0xA2] 1).ip = some 0xA2 ∧
      (textAt [0x0F, 0xA2] 1).memRead ((textAt [0x0F, 0xA2] 1).ip + 1) = none) ∧
    ((textAt [0x0F, 0xA2, 0x0F] 2).atEnd = false ∧
      (textAt [0x0F, 0xA2, 0x0F] 2).memRead (textAt [0x0F, 0xA2, 0x0F] 2).ip = some 0x0F ∧
      (textAt [0x0F, 0xA2, 0x0F] 2).memRead ((textAt [0x0F, 0xA2, 0x0F] 2).ip + 1) = none) := by decide

/-- The first byte differs, then the second (V22). -/
theorem witness_OtherBytesAreRefused :
    ((textAt [0x66, 0x0F, 0xA2] 0).fault = none ∧ (textAt [0x66, 0x0F, 0xA2] 0).atEnd = false ∧
      (textAt [0x66, 0x0F, 0xA2] 0).memRead (textAt [0x66, 0x0F, 0xA2] 0).ip = some 0x66 ∧
      (textAt [0x66, 0x0F, 0xA2] 0).memRead ((textAt [0x66, 0x0F, 0xA2] 0).ip + 1) = some 0x0F) ∧
    ((textAt [0x0F, 0xA3] 0).atEnd = false ∧ (textAt [0x0F, 0xA3] 0).memRead (textAt [0x0F, 0xA3] 0).ip = some 0x0F ∧
      (textAt [0x0F, 0xA3] 0).memRead ((textAt [0x0F, 0xA3] 0).ip + 1) = some 0xA3) := by decide

theorem witness_NoStepChangesConfigTextOrFlag : ∃ t, step (textAt [0x0F, 0xA2] 0) = .next t := ⟨_, rfl⟩

/-- A step that completes, and one for each of the two marks. -/
theorem witness_StepCompletesOrOnlyMarks :
    (∃ t, step (textAt [0x0F, 0xA2] 0) = .next t ∧ t.fault = none) ∧
    (∃ t, step (start cfgSmallAbsent 0) = .next t ∧ t.fault = some (.undefinedOpcode 15)) ∧
    (∃ t, step unwritten = .next t ∧ t.fault = some (.unwrittenRegister .eax)) :=
  ⟨⟨_, rfl, rfl⟩, ⟨_, rfl, rfl⟩, ⟨_, rfl, rfl⟩⟩

/-- A state that meets the invariant and runs; one without CPUID; one whose mark is set. -/
theorem witness_StepKeepsInvariant :
    (textAt [0x0F, 0xA2] 0).Inv ∧ (∃ t, step (textAt [0x0F, 0xA2] 0) = .next t) ∧ (start cfgSmallAbsent 0).Inv ∧
    (raise (.unwrittenRegister .eax) unwritten).Inv := by
  refine ⟨⟨by decide, by decide, by decide, by decide, by decide, by decide, ?_⟩, ⟨_, rfl⟩, ?_, ?_⟩
  · intro m h
    cases h
  · rw [show start cfgSmallAbsent 0 = State.launch cfgSmallAbsent [0x0F, 0xA2] ⟨.held 0, .noValue, .noValue, .noValue⟩ 1 0
      from by decide]
    refine ⟨by decide, by decide, by decide, by decide, by decide, by decide, ?_⟩
    intro m h
    cases h
  · refine ⟨by decide, by decide, by decide, by decide, by decide, by decide, ?_⟩
    intro m h
    cases h
    exact ⟨rfl, rfl, rfl⟩

/-- A text as long as the address space, the longest the hypothesis allows. -/
theorem witness_LaunchMeetsInvariant : cfgSmall.wf = true ∧ (List.replicate 16 (0x0F : Byte)).length ≤ cfgSmall.space := by
  decide

/-- Both clauses: a byte of a text that wraps, and an address outside it. -/
theorem witness_TextReadsBackAndNothingElse : [(0x0F : Byte), 0xA2].length ≤ cfgSmall.space ∧ 1 < [(0x0F : Byte), 0xA2].length ∧
    (∀ i, i < [(0x0F : Byte), 0xA2].length → 14 % 2 ^ cfgSmall.ipWidth ≠ (cfgSmall.codeBase + i) % 2 ^ cfgSmall.ipWidth) := by
  decide

/-! ## Witnesses: faults and completion -/

theorem witness_AbsentCpuidRaisesUndefinedOpcode : (start cfgC 0).cfg.hasCpuid = false := by decide

theorem witness_UnwrittenLeafRaisesUnwrittenRegister : unwritten.cfg.hasCpuid = true ∧ unwritten.reg .eax = .noValue := by decide

/-- Both directions: a state in which CPUID runs, and one for each fault. -/
theorem witness_CpuidFaultsExactlyWhenItCannotRun :
    ((start cfgB 0xFFFFFFFF).fault = none ∧ ∃ t, exec .cpuid (start cfgB 0xFFFFFFFF) = .next t ∧ t.fault = none) ∧
    ((start cfgC 0).fault = none ∧ ∃ t, exec .cpuid (start cfgC 0) = .next t ∧ t.fault ≠ none) ∧
    (unwritten.fault = none ∧ ∃ t, exec .cpuid unwritten = .next t ∧ t.fault ≠ none) :=
  ⟨⟨rfl, _, rfl, rfl⟩, ⟨rfl, _, rfl, by decide⟩, ⟨rfl, _, rfl, by decide⟩⟩

/-- A supported leaf, a reserved one, an unsupported one, and a leaf on a processor of note 1. -/
theorem witness_EveryLeafCompletes : CpuidRuns (start cfgB 0x80000008) 0x80000008 ∧
    CpuidRuns (start cfgB 0x80000005) 0x80000005 ∧ CpuidRuns (start cfgB 0x7FFFFFFF) 0x7FFFFFFF ∧
    CpuidRuns (start cfgD 1) 1 ∧ cfgD.keepsEbxEcx = true := by decide

/-! ## Witnesses: the leaves -/

theorem witness_LeafZeroReturnsMaxBasicAndVendor : CpuidRuns (start cfgB 0) 0 := by decide

theorem witness_GenuineIntelExample : CpuidRuns (start Config.cfgA 0) 0 ∧ (start Config.cfgA 0).cfg.vendor =
    #v[0x47, 0x65, 0x6E, 0x75, 0x69, 0x6E, 0x65, 0x49, 0x6E, 0x74, 0x65, 0x6C] := by decide

theorem witness_SignatureFieldsStandWhereListed : CpuidRuns (start cfgB 1) 1 ∧ 1 ≤ (start cfgB 1).cfg.maxBasic := by decide

theorem witness_LeafOneReturnsSignatureAndFeatures : CpuidRuns (start cfgD 1) 1 ∧ 1 ≤ (start cfgD 1).cfg.maxBasic := by decide

theorem witness_DisplayedFamilyAndModelAreSums : CpuidRuns (start { cfgB with extFamily := 255 } 1) 1 ∧
    1 ≤ (start { cfgB with extFamily := 255 } 1).cfg.maxBasic := by decide

theorem witness_LeafTwoReturnsDescriptors : CpuidRuns (start (cfgE .pentium3) 2) 2 ∧
    2 ≤ (start (cfgE .pentium3) 2).cfg.maxBasic := by decide

/-- One state for each of the three layouts, at the boundary value of MAX_BASIC. -/
theorem witness_LeafThreeReturnsSerialNumber (l : PsnLayout) : CpuidRuns (start (cfgE l) 3) 3 ∧
    3 ≤ (start (cfgE l) 3).cfg.maxBasic ∧ (start (cfgE l) 3).cfg.psnEnabled = true ∧ (start (cfgE l) 3).cfg.psnLayout = l := by
  cases l <;> decide

theorem witness_LeafExtZeroReturnsMaxExt : (start cfgB 0x80000000).cfg.wf = true ∧
    CpuidRuns (start cfgB 0x80000000) 0x80000000 ∧ (start cfgB 0x80000000).cfg.hasExt = true := by decide

theorem witness_LeafExtOneReturnsExtendedFeatures : CpuidRuns (start cfgB 0x80000001) 0x80000001 ∧
    (start cfgB 0x80000001).cfg.hasExt = true ∧ 0x80000001 ≤ (start cfgB 0x80000001).cfg.maxExt := by decide

/-- The three leaves of the string; the last is MAX_EXT of CFG-A itself. -/
theorem witness_BrandLeafReturnsSixteenCharacters (j : Fin 3) :
    CpuidRuns (start Config.cfgA (BitVec.ofNat 32 (0x80000002 + j))) (BitVec.ofNat 32 (0x80000002 + j)) ∧
    Config.cfgA.hasExt = true ∧ BitVec.ofNat 32 (0x80000002 + j) ≤ Config.cfgA.maxExt := by
  revert j
  decide

theorem witness_BrandStringReadsBack : (start cfgB 0x80000003).cfg = (start cfgB 0x80000002).cfg ∧
    (start cfgB 0x80000004).cfg = (start cfgB 0x80000002).cfg ∧ cfgB.wf = true ∧ cfgB.keepsEbxEcx = false ∧
    cfgB.hasExt = true ∧ 0x80000004 ≤ cfgB.maxExt ∧ CpuidRuns (start cfgB 0x80000002) 0x80000002 ∧
    CpuidRuns (start cfgB 0x80000003) 0x80000003 ∧ CpuidRuns (start cfgB 0x80000004) 0x80000004 ∧
    (∃ t, exec .cpuid (start cfgB 0x80000002) = .next t) ∧ (∃ t, exec .cpuid (start cfgB 0x80000003) = .next t) ∧
    (∃ t, exec .cpuid (start cfgB 0x80000004) = .next t) :=
  ⟨by decide, by decide, by decide, by decide, by decide, by decide, by decide, by decide, by decide, ⟨_, rfl⟩, ⟨_, rfl⟩,
    ⟨_, rfl⟩⟩

theorem witness_LeafExtSixReturnsL2Info : CpuidRuns (start cfgB 0x80000006) 0x80000006 ∧
    (start cfgB 0x80000006).cfg.hasExt = true ∧ 0x80000006 ≤ (start cfgB 0x80000006).cfg.maxExt := by decide

theorem witness_LeafExtEightReturnsAddressSizes : CpuidRuns (start cfgB 0x80000008) 0x80000008 ∧
    (start cfgB 0x80000008).cfg.hasExt = true ∧ 0x80000008 ≤ (start cfgB 0x80000008).cfg.maxExt := by decide

/-- The clauses at the ends of their ranges: the last basic and the first extended leaf, with and without extended leaves. -/
theorem witness_LeafSupportedExactlyInItsRange : cfgB.wf = true ∧ (0x7FFFFFFF : Word).toNat < 2 ^ 31 ∧
    2 ^ 31 ≤ (0x80000000 : Word).toNat ∧ supported cfgB 0x80000000 = true ∧
    Config.wf { cfgB with hasExt := false } = true ∧ supported { cfgB with hasExt := false } 0x80000000 = false := by decide

/-- An unsupported leaf, a register that leaf 80000006h does not name, and one that may be kept. -/
theorem witness_UnnamedRegistersAdmitEveryValue : CpuidRuns (start cfgB 2) 2 ∧ leafNames cfgB 2 .edx = false ∧
    CpuidRuns (start cfgB 0x80000006) 0x80000006 ∧ leafNames cfgB 0x80000006 .eax = false ∧
    CpuidRuns (start cfgD 2) 2 ∧ leafNames cfgD 2 .ebx = false ∧ MayKeep (start cfgD 2) 2 .ebx := by decide

/-- Two states that differ in EBX, ECX and `ip`; and a register that may be kept. -/
theorem witness_NamedRegistersDependOnLeafAndConfigOnly :
    (start cfgB 0x80000006).cfg = ((startWith cfgB 0x80000006 1 2).setIp 5).cfg ∧
    CpuidRuns (start cfgB 0x80000006) 0x80000006 ∧ CpuidRuns ((startWith cfgB 0x80000006 1 2).setIp 5) 0x80000006 ∧
    leafNames cfgB 0x80000006 .ecx = true ∧ (CpuidRuns (start cfgD 1) 1 ∧ leafNames cfgD 1 .ecx = true ∧
      MayKeep (start cfgD 1) 1 .ecx) ∧
    (∃ u, exec .cpuid (start cfgB 0x80000006) = .next u) ∧
    (∃ v, exec .cpuid ((startWith cfgB 0x80000006 1 2).setIp 5) = .next v) :=
  ⟨by decide, by decide, by decide, by decide, by decide, ⟨_, rfl⟩, ⟨_, rfl⟩⟩

/-- Values that can be kept, and no value. -/
theorem witness_KeptRegistersFourCombinations : CpuidRuns (startWith cfgD 1 0x11111111 0x22222222) 1 ∧
    CpuidRuns (start cfgD 1) 1 ∧ cfgD.keepsEbxEcx = true ∧ (1 : Word) ≠ 0 := by decide

/-- Leaf 0 on a processor of note 1, and a leaf above 0 on another. -/
theorem witness_NothingIsKeptOnLeafZeroOrNewProcessors : CpuidRuns (start cfgD 0) 0 ∧ CpuidRuns (start cfgB 1) 1 ∧
    cfgB.keepsEbxEcx = false := by decide

theorem witness_ZeroedRegistersReadTrueOrZero : CpuidRuns (startWith cfgD 1 0 0) 1 ∧ 1 ≤ cfgD.maxBasic ∧
    (startWith cfgD 1 0 0).reg .ebx = .held 0 ∧ (startWith cfgD 1 0 0).reg .ecx = .held 0 := by decide

/-! ## Witnesses: the flag and the configuration -/

theorem witness_ChangeableFlagMeansCpuid : ∀ b : Bit, ∃ t, writeFlag21 b (start Config.cfgA 0) = .ok t ∧ readFlag21 t = .ok b :=
  fun _ => ⟨_, rfl, rfl⟩

/-- With CPUID, and without it where the bit is stuck at 1. -/
theorem witness_DetectionFindsCpuidAndRestoresState :
    ((textAt [0x0F, 0xA2] 0).Inv ∧ (textAt [0x0F, 0xA2] 0).cfg.hasEflags = true) ∧
    ((start cfgSmallAbsent 0).Inv ∧ (start cfgSmallAbsent 0).cfg.hasEflags = true) :=
  ⟨⟨witness_StepKeepsInvariant.1, rfl⟩, ⟨witness_StepKeepsInvariant.2.2.1, rfl⟩⟩

theorem witness_FlagPrimitivesRefusedWithoutEflags : (start { cfgC with hasEflags := false } 0).cfg.hasEflags = false := by decide

/-- A processor with CPUID, where detection answers. -/
theorem witness_CpuidLeavesTheFlagAsChangeable :
    (∃ t, exec .cpuid (start Config.cfgA 0) = .next t) ∧ ∃ s, writeFlag21 1 (start Config.cfgA 0) = .ok s := ⟨⟨_, rfl⟩, ⟨_, rfl⟩⟩

/-- With and without a hypervisor. -/
theorem witness_HypervisorBitShowsInLeafOne :
    (Config.cfgA.wf = true ∧ CpuidRuns (start Config.cfgA 1) 1 ∧ 1 ≤ Config.cfgA.maxBasic) ∧
    Config.wf { Config.cfgA with hypervisor := true, feat1Ecx := 0x80000000 } = true := by decide

theorem witness_PsnBitClearWithoutSerialNumber : Config.cfgA.wf = true ∧ Config.cfgA.psnLayout = .none ∧
    CpuidRuns (start Config.cfgA 1) 1 ∧ 1 ≤ Config.cfgA.maxBasic := by decide

/-- Every clause: AMD; the Pentium III; the Efficeon; the Crusoe. -/
theorem witness_SerialNumberStandsOnlyWhereListed :
    (cfgB.wf = true ∧ cfgB.vendor = vendorAuthenticAMD ∧ CpuidRuns (start cfgB 1) 1 ∧ 1 ≤ cfgB.maxBasic) ∧
    ((cfgE .pentium3).wf = true ∧ (cfgE .pentium3).psnLayout = .pentium3) ∧
    ((cfgE .efficeon).wf = true ∧ (cfgE .efficeon).psnLayout = .efficeon) ∧
    ((cfgE .crusoe).wf = true ∧ (cfgE .crusoe).psnLayout = .crusoe) := by decide

theorem witness_AmdDuplicatedBitsAgree : (start cfgB 1).cfg = (start cfgB 0x80000001).cfg ∧ cfgB.wf = true ∧
    cfgB.vendor = vendorAuthenticAMD ∧ CpuidRuns (start cfgB 1) 1 ∧ 1 ≤ cfgB.maxBasic ∧
    CpuidRuns (start cfgB 0x80000001) 0x80000001 ∧ cfgB.hasExt = true ∧ 0x80000001 ≤ cfgB.maxExt ∧
    (∃ u, exec .cpuid (start cfgB 1) = .next u) ∧ (∃ v, exec .cpuid (start cfgB 0x80000001) = .next v) :=
  ⟨by decide, by decide, by decide, by decide, by decide, by decide, by decide, by decide, ⟨_, rfl⟩, ⟨_, rfl⟩⟩

theorem witness_IntelSyscallBitClearOutside64BitMode : Config.cfgA.wf = true ∧ Config.cfgA.vendor = vendorGenuineIntel ∧
    Config.cfgA.mode64 = false ∧ CpuidRuns (start Config.cfgA 0x80000001) 0x80000001 ∧ Config.cfgA.hasExt = true ∧
    0x80000001 ≤ Config.cfgA.maxExt := by decide

theorem witness_PentiumProSysenterBitIsNotTrusted : cfgPentiumPro.wf = true ∧ cfgPentiumPro.vendor = vendorGenuineIntel ∧
    cfgPentiumPro.family = 6 ∧ cfgPentiumPro.model = 1 ∧ CpuidRuns (start cfgPentiumPro 1) 1 ∧ 1 ≤ cfgPentiumPro.maxBasic := by
  decide

/-- With CPUID and without it. -/
theorem witness_ResetLeavesIdentificationInDx : Config.cfgA.hasEflags = true ∧ cfgC.hasEflags = true ∧ cfgC.hasCpuid = false := by
  decide

/-- The clauses of EDX and of the flag after reset: with CPUID, without it, and without EFLAGS. -/
theorem witness_ResetLeavesTheChosenValues : (Config.cfgA.hasEflags = true ∧ Config.cfgA.hasCpuid = true) ∧
    (cfgC.hasEflags = true ∧ cfgC.hasCpuid = false) ∧ Config.hasEflags { cfgC with hasEflags := false } = false := by decide

end Sys2Proof.Tests
end

-- ==== Proofs: what the flag reads back ====
section
/-! PROOFS. EFLAGS bit 21 after a write (10_state.md R25) and what that says about CPUID (40_cpuid_invocation.md R83). -/

namespace Sys2Proof.Machine

/-- Only a processor with EFLAGS lets a write to the flag succeed. -/
theorem hasEflags_of_writeFlag21_ok {s t : State} {b : Bit} (hw : writeFlag21 b s = .ok t) : s.cfg.hasEflags = true := by
  by_contra h
  rw [writeFlag21_refused (Bool.eq_false_of_not_eq_true h)] at hw
  cases hw

/-- On a processor without CPUID the flag reads ID_STUCK after any write that succeeds. -/
theorem readFlag21_of_writeFlag21_stuck {s t : State} {b : Bit} (hc : s.cfg.hasCpuid = false)
    (hw : writeFlag21 b s = .ok t) : readFlag21 t = .ok s.cfg.idStuck := by
  have he := hasEflags_of_writeFlag21_ok hw
  rw [writeFlag21_stuck he hc] at hw
  cases hw
  exact readFlag21_ok he

/-- Settles O40: without CPUID, the complement of ID_STUCK is a value that does not read back. -/
theorem changeableFlagMeansCpuid : Obligations.ChangeableFlagMeansCpuid := by
  intro s hchangeable
  by_contra h
  obtain ⟨t, hw, hr⟩ := hchangeable (~~~s.cfg.idStuck)
  have hstuck := readFlag21_of_writeFlag21_stuck (Bool.eq_false_of_not_eq_true h) hw
  have heq : s.cfg.idStuck = ~~~s.cfg.idStuck := Except.ok.inj (hstuck.symm.trans hr)
  have bit_ne_not : ∀ x : Bit, x ≠ ~~~x := by decide
  exact bit_ne_not _ heq

end Sys2Proof.Machine
end

-- ==== Proofs: a CPUID that runs, and what stands in its registers ====
section
/-! PROOFS. CPUID where it executes normally (40_cpuid_invocation.md R86), with the registers that note 1 lets it keep
(70_reset_and_hazards.md R196). -/

namespace Sys2Proof.Machine

/-- CPUID that runs answers the completed state, for the draws and choices of that state. -/
theorem exec_cpuid_of_runs {s : State} {leaf : Word} (h : CpuidRuns s leaf) :
    exec .cpuid s = .next (cpuidComplete (freshQuad s.draws) (freshKeep s.draws) leaf s) := by
  obtain ⟨hcpuid, heax⟩ := h
  exact congrArg _ (cpuidWith_held hcpuid heax _ _)

/-- The registers of `t` hold the words `v` that `leaf` returns, but for those that note 1 let it keep from `s`. -/
def LeafInRegs (s t : State) (leaf : Word) (v : Quad) : Prop :=
  ∀ r : Reg, t.reg r = .held (quadGet v r) ∨ (MayKeep s leaf r ∧ t.reg r = s.reg r)

/-- A destination keeps its old contents only where its choice says so. -/
theorem keepOrWrite_cases (keep : Bool) (old : RegValue) (v : Word) :
    keepOrWrite keep old v = .held v ∨ (keep = true ∧ keepOrWrite keep old v = old) := by
  cases keep with
  | false => exact .inl rfl
  | true => exact .inr ⟨rfl, rfl⟩

/-- The condition that CPUID tests before it keeps a register is that of note 1. -/
theorem mayKeep_of_test {s : State} {leaf : Word} {k : Bool} {r : Reg} (hr : r = .ebx ∨ r = .ecx)
    (h : ((s.cfg.keepsEbxEcx && decide (0 < leaf)) && k) = true) : MayKeep s leaf r := by
  simp only [Bool.and_eq_true, decide_eq_true_eq] at h
  obtain ⟨⟨hkeeps, hpos⟩, -⟩ := h
  exact ⟨hkeeps, (BitVec.pos_iff_ne_zero leaf).1 hpos, hr⟩

/-- A CPUID that completes leaves the value of its leaf in the registers. -/
theorem cpuidComplete_leafInRegs (any : Quad) (keep : Keep) (leaf : Word) (s : State) :
    LeafInRegs s (cpuidComplete any keep leaf s) leaf (leafValue s.cfg leaf any) := by
  intro r
  cases r with
  | eax => exact .inl rfl
  | edx => exact .inl rfl
  | ebx => exact (keepOrWrite_cases _ _ _).imp_right fun ⟨h, hold⟩ => ⟨mayKeep_of_test (.inl rfl) h, hold⟩
  | ecx => exact (keepOrWrite_cases _ _ _).imp_right fun ⟨h, hold⟩ => ⟨mayKeep_of_test (.inr rfl) h, hold⟩

/-- CPUID that runs answers a next state with the value of its leaf in the registers, for some draws. -/
theorem exec_cpuid_leafInRegs {s : State} {leaf : Word} (h : CpuidRuns s leaf) :
    ∃ t any, exec .cpuid s = .next t ∧ LeafInRegs s t leaf (leafValue s.cfg leaf any) :=
  ⟨_, _, exec_cpuid_of_runs h, cpuidComplete_leafInRegs _ _ _ s⟩

section
variable {s t : State} {leaf : Word} {v : Quad}

/-- A register that may not be kept holds the word of the leaf. -/
theorem LeafInRegs.held (h : LeafInRegs s t leaf v) {r : Reg} (hr : ¬ MayKeep s leaf r) :
    t.reg r = .held (quadGet v r) :=
  (h r).resolve_right fun hkept => hr hkept.1

/-- EAX is always written. -/
theorem LeafInRegs.eax (h : LeafInRegs s t leaf v) : t.reg .eax = .held v.eax :=
  h.held (by simp [MayKeep])

/-- EDX is always written. -/
theorem LeafInRegs.edx (h : LeafInRegs s t leaf v) : t.reg .edx = .held v.edx :=
  h.held (by simp [MayKeep])

/-- A register is written or, only on the processors of note 1, kept. -/
theorem LeafInRegs.writtenOrKept (h : LeafInRegs s t leaf v) (r : Reg) : WrittenOrKept s t r (quadGet v r) :=
  (h r).imp_right fun ⟨⟨hkeeps, _⟩, hold⟩ => ⟨hkeeps, hold⟩

/-- Leaf 0 keeps nothing. -/
theorem LeafInRegs.held_of_leafZero (h : LeafInRegs s t 0 v) (r : Reg) : t.reg r = .held (quadGet v r) :=
  h.held fun ⟨_, hne, _⟩ => hne rfl

end

end Sys2Proof.Machine
end

-- ==== Proofs: what a legal configuration says ====
section
/-! PROOFS. The constraints of a legal configuration (70_reset_and_hazards.md R192) on the words of leaf 1, taken out of
`Config.wf` one by one. -/

namespace Sys2Proof

/-- A legal configuration passes each check. -/
theorem Config.wf_iff (c : Config) : c.wf = true ↔
    c.cpuidNeedsEflags = true ∧ c.ipWidthOk = true ∧ c.codeBaseOk = true ∧ c.maxBasicOk = true ∧ c.maxExtOk = true ∧
    c.hypervisorBitOk = true ∧ c.psnBitOk = true ∧ c.psnLayoutOk = true ∧ c.pentium3IsIntel = true ∧
    c.amdHasNoPsn = true ∧ c.amdDupOk = true ∧ c.intelSyscallOk = true ∧ c.brandOk = true ∧ c.pentiumProSepOk = true := by
  simp only [Config.wf, Bool.and_eq_true, and_assoc]

/-- In a legal configuration ECX bit 31 of leaf 1 says whether there is a hypervisor (41_cpuid_basic_leaves.md R113). -/
theorem Config.feat1Ecx_hypervisor_of_wf {c : Config} (h : c.wf = true) : c.feat1Ecx.getLsbD 31 = c.hypervisor := by
  obtain ⟨-, -, -, -, -, hbit, -⟩ := c.wf_iff.1 h
  exact eq_of_beq hbit

/-- In a legal configuration without a serial number EDX bit 18 of leaf 1 is 0 (41_cpuid_basic_leaves.md R114). -/
theorem Config.feat1Edx_psn_of_wf {c : Config} (h : c.wf = true) (hnone : c.psnLayout = .none) :
    c.feat1Edx.getLsbD 18 = false := by
  obtain ⟨-, -, -, -, -, -, hbit, -⟩ := c.wf_iff.1 h
  simpa [Config.psnBitOk, hnone] using hbit

end Sys2Proof
end

-- ==== Proofs: leaves 0 and 1 ====
section
/-! PROOFS. What leaf 0 and leaf 1 return (41_cpuid_basic_leaves.md sections 1 and 2). -/

namespace Sys2Proof.Machine

/-- The words of leaf 0 for "GenuineIntel" (41_cpuid_basic_leaves.md R102). -/
theorem leaf0_genuineIntel {c : Config} (h : c.vendor = vendorGenuineIntel) :
    leaf0 c = ⟨c.maxBasic, 0x756E6547, 0x6C65746E, 0x49656E69⟩ := by
  rw [leaf0, h]
  rfl

/-- Leaf 0 leaves its words in the registers (41_cpuid_basic_leaves.md R103). -/
theorem exec_cpuid_leafZero {s : State} (h : CpuidRuns s 0) :
    ∃ t, exec .cpuid s = .next t ∧ LeafInRegs s t 0 (leaf0 s.cfg) := by
  obtain ⟨t, any, hexec, hregs⟩ := exec_cpuid_leafInRegs h
  exact ⟨t, hexec, leafValue_0 s.cfg any ▸ hregs⟩

/-- Leaf 1, where it is supported, leaves its words in the registers (41_cpuid_basic_leaves.md R110). -/
theorem exec_cpuid_leafOne {s : State} (h : CpuidRuns s 1) (hmax : 1 ≤ s.cfg.maxBasic) :
    ∃ t, exec .cpuid s = .next t ∧ LeafInRegs s t 1 (leaf1 s.cfg) := by
  have hsupported : supported s.cfg 1 = true := (supported_basic s.cfg rfl).trans (decide_eq_true hmax)
  obtain ⟨t, any, hexec, hregs⟩ := exec_cpuid_leafInRegs h
  exact ⟨t, hexec, leafValue_1 s.cfg any hsupported ▸ hregs⟩

/-- Where each field stands in the signature (41_cpuid_basic_leaves.md R104): a slice of a concatenation that lies wholly
in one of the two parts is a slice of that part. -/
theorem extractLsb'_signature (c : Config) :
    (signature c).extractLsb' 0 4 = c.stepping ∧ (signature c).extractLsb' 4 4 = c.model ∧
    (signature c).extractLsb' 8 4 = c.family ∧ (signature c).extractLsb' 12 2 = c.ptype ∧
    (signature c).extractLsb' 16 4 = c.extModel ∧ (signature c).extractLsb' 20 8 = c.extFamily ∧
    (signature c).extractLsb' 28 4 = c.sigRsvd.extractLsb' 0 4 ∧
    (signature c).extractLsb' 14 2 = c.sigRsvd.extractLsb' 4 2 := by
  simp (disch := omega) only [signature, BitVec.extractLsb'_append_eq_of_le, BitVec.extractLsb'_append_eq_of_add_le]
  simp

/-- Settles O23: EAX holds the signature, whose slices are the fields. -/
theorem signatureFieldsStandWhereListed : Obligations.SignatureFieldsStandWhereListed := by
  intro s h hmax
  obtain ⟨t, hexec, hregs⟩ := exec_cpuid_leafOne h hmax
  exact ⟨t, signature s.cfg, hexec, hregs.eax, extractLsb'_signature s.cfg⟩

/-- Settles O22: leaf 0 packs the vendor string into the three words of the example. -/
theorem genuineIntelExample : Obligations.GenuineIntelExample := by
  intro s h hvendor
  obtain ⟨t, hexec, hregs⟩ := exec_cpuid_leafZero h
  rw [leaf0_genuineIntel hvendor] at hregs
  exact ⟨t, hexec, hregs.held_of_leafZero .ebx, hregs.held_of_leafZero .edx, hregs.held_of_leafZero .ecx⟩

/-- Settles O44: the word is FEAT1_ECX, which a legal configuration ties to the hypervisor. -/
theorem hypervisorBitShowsInLeafOne : Obligations.HypervisorBitShowsInLeafOne := by
  intro s hwf h hmax
  obtain ⟨t, hexec, hregs⟩ := exec_cpuid_leafOne h hmax
  have hbit : s.cfg.feat1Ecx.getLsbD 31 = true ↔ s.cfg.hypervisor = true := by
    rw [Config.feat1Ecx_hypervisor_of_wf hwf]
  exact ⟨t, s.cfg.feat1Ecx, hexec, hregs.writtenOrKept .ecx, hbit⟩

/-- Settles O45: EDX holds FEAT1_EDX, whose bit 18 a legal configuration without a serial number has clear. -/
theorem psnBitClearWithoutSerialNumber : Obligations.PsnBitClearWithoutSerialNumber := by
  intro s hwf hnone h hmax
  obtain ⟨t, hexec, hregs⟩ := exec_cpuid_leafOne h hmax
  exact ⟨t, s.cfg.feat1Edx, hexec, hregs.edx, Config.feat1Edx_psn_of_wf hwf hnone⟩

end Sys2Proof.Machine
end

-- ==== Proofs: decoding and encoding ====
section
/-! PROOFS. The decoder against the encoder (30_encoding.md sections 1 and 4), and the words of the opcode table (R63). -/

namespace Sys2Proof

/-- Decoding gives an instruction exactly on its encoding, and leaves the bytes after it. -/
theorem decode_eq_instr_iff (bytes rest : List Byte) (i : Instr) :
    decode bytes = .instr i rest ↔ bytes = encode i ++ rest := by
  cases i
  constructor
  · intro h
    match bytes, h with
    | b0 :: b1 :: tail, h =>
      by_cases hop : b0 = opcodeByte1 ∧ b1 = opcodeByte2
      · obtain ⟨rfl, rfl⟩ := hop
        cases h
        rfl
      · rw [decode_other hop] at h
        cases h
  · rintro rfl
    exact decode_cpuid rest

/-- Settles O3: the opcode bytes decide, and every instruction is well-formed. -/
theorem decodeInvertsEncode : Obligations.DecodeInvertsEncode := by
  refine ⟨fun bytes rest i => ?_, fun bytes hlen hnone => ?_⟩
  · have hwf : i.wf = true := by cases i; rfl
    simp only [decode_eq_instr_iff, hwf, true_and]
  · match bytes, hlen with
    | b0 :: b1 :: rest, _ =>
      refine ⟨b0, b1, rest, rfl, decode_other ?_ rest⟩
      rintro ⟨rfl, rfl⟩
      exact hnone .cpuid rest rfl

/-- Settles O1: each of the words is decoded by its first two bytes. -/
theorem writtenWordsDecodeAsTheTableSays : Obligations.WrittenWordsDecodeAsTheTableSays := by
  unfold Obligations.WrittenWordsDecodeAsTheTableSays
  decide

/-- A table word of 16 bits is the byte of its bits 7:0, then the byte of its bits 15:8. -/
theorem tableBytes_sixteen (w : Nat) : tableBytes 16 w = [BitVec.ofNat 8 w, BitVec.ofNat 8 (w / 256)] := by
  have hlow : w % 2 ^ 16 % 2 ^ 8 = w % 2 ^ 8 := by omega
  have hhigh : w % 2 ^ 16 / 256 % 2 ^ 8 = w / 256 % 2 ^ 8 := by omega
  simp only [tableBytes, List.cons.injEq, and_true]
  exact ⟨BitVec.eq_of_toNat_eq hlow, BitVec.eq_of_toNat_eq hhigh⟩

/-- The decoder reads `i` from a table word exactly where the two bytes decode to it. -/
theorem decodeTableWord_eq_some_iff (w : Nat) (i : Instr) :
    decodeTableWord 16 w = some i ↔ decode (tableBytes 16 w) = .instr i [] := by
  rw [decodeTableWord, tableBytes_sixteen]
  by_cases hop : BitVec.ofNat 8 w = opcodeByte1 ∧ BitVec.ofNat 8 (w / 256) = opcodeByte2
  · simp [hop, decode_cpuid]
  · simp [decode_other hop]

/-- The decoder reads nothing from a table word exactly where its two bytes are not in scope. -/
theorem decodeTableWord_eq_none_iff (w : Nat) : decodeTableWord 16 w = none ↔
    decode (tableBytes 16 w) = .notInScope (BitVec.ofNat 8 w) (BitVec.ofNat 8 (w / 256)) := by
  rw [decodeTableWord, tableBytes_sixteen]
  by_cases hop : BitVec.ofNat 8 w = opcodeByte1 ∧ BitVec.ofNat 8 (w / 256) = opcodeByte2
  · simp [hop, decode_cpuid]
  · simp [decode_other hop]

/-- Settles O2: the two bytes are the opcode bytes exactly where the low 16 bits are A20Fh. -/
theorem tableWordIsCpuidExactlyOnMatch : Obligations.TableWordIsCpuidExactlyOnMatch := by
  refine ⟨fun w => ?_, rfl⟩
  have hmask : w &&& 0xFFFF = w % 2 ^ 16 := Nat.and_two_pow_sub_one_eq_mod w 16
  have hbytes : BitVec.ofNat 8 w = opcodeByte1 ∧ BitVec.ofNat 8 (w / 256) = opcodeByte2 ↔
      w % 2 ^ 8 = 0x0F ∧ w / 256 % 2 ^ 8 = 0xA2 := by
    simp only [← BitVec.toNat_inj, BitVec.toNat_ofNat]
    rfl
  rw [decodeTableWord_eq_some_iff, decode_eq_instr_iff, tableBytes_sixteen, hmask]
  simp only [encode, List.append_nil, List.cons.injEq, and_true, hbytes]
  omega

end Sys2Proof
end

-- ==== Proofs: what a step runs ====
section
/-! PROOFS. The step by the bytes at `ip` (30_encoding.md R64, 20_memory.md R45, 00_scope.md R19). -/

namespace Sys2Proof.Machine

section
variable {s : State}

/-- Two bytes that can be read are what is fetched. -/
theorem fetch_of_reads {b0 b1 : Byte} (h0 : s.memRead s.ip = some b0) (h1 : s.memRead (s.ip + 1) = some b1) :
    fetch s = .bytes b0 b1 := by
  simp [fetch, h0, h1]

/-- A first byte outside the text ends the fetch. -/
theorem fetch_of_first_missing (h0 : s.memRead s.ip = none) : fetch s = .outside (s.addr s.ip) := by
  simp [fetch, h0]

/-- A second byte outside the text ends the fetch. -/
theorem fetch_of_second_missing {b0 : Byte} (h0 : s.memRead s.ip = some b0) (h1 : s.memRead (s.ip + 1) = none) :
    fetch s = .outside (s.addr (s.ip + 1)) := by
  simp [fetch, h0, h1]

/-- The state is at the end where `ip` and the end of the text are the same address. -/
theorem atEnd_iff : s.atEnd = true ↔ s.addr s.ip = s.textEnd := beq_iff_eq

/-- A marked state has no step. -/
theorem step_of_marked {m : FaultMark} (hf : s.fault = some m) : step s = .fault (.halted m) := by
  simp [step, hf]

/-- The run is over at the end of the text. -/
theorem step_of_atEnd (hf : s.fault = none) (he : s.atEnd = true) : step s = .refused .endOfRun := by
  simp [step, hf, he]

/-- A fetch outside the text is a fault. -/
theorem step_of_outside {a : Nat} (hf : s.fault = none) (he : s.atEnd = false) (h : fetch s = .outside a) :
    step s = .fault (.fetchOutsideText a) := by
  simp [step, hf, he, h]

/-- Bytes that decode run. -/
theorem step_of_instr {b0 b1 : Byte} {i : Instr} {rest : List Byte} (hf : s.fault = none) (he : s.atEnd = false)
    (h : fetch s = .bytes b0 b1) (hd : decode [b0, b1] = .instr i rest) : step s = exec i s := by
  simp [step, hf, he, h, hd]

/-- Bytes not in scope are refused. -/
theorem step_of_notInScope {b0 b1 : Byte} (hf : s.fault = none) (he : s.atEnd = false)
    (h : fetch s = .bytes b0 b1) (hd : decode [b0, b1] = .notInScope b0 b1) :
    step s = .refused (.notInScope s.ip b0 b1) := by
  simp [step, hf, he, h, hd]

/-- Away from the end, a step that stops outside the text is a fetch that did. -/
theorem step_outside_iff (hf : s.fault = none) (he : s.atEnd = false) (a : Nat) :
    step s = .fault (.fetchOutsideText a) ↔ fetch s = .outside a := by
  refine ⟨fun h => ?_, step_of_outside hf he⟩
  rcases step_cases s with ⟨m, hm, -⟩ | ⟨-, hend, -⟩ | ⟨a', -, -, hfetch, hs⟩ | ⟨b0, b1, -, -, -, -, hs⟩ |
    ⟨b0, b1, i, -, -, -, -, hs⟩
  · simp [hf] at hm
  · simp [he] at hend
  · rw [h] at hs
    cases hs
    exact hfetch
  · rw [h] at hs
    cases hs
  · cases i
    rw [h] at hs
    cases hs

/-- A fetch ends outside the text exactly where one of the two bytes is missing. -/
theorem fetch_outside_iff : (∃ a, fetch s = .outside a) ↔ s.memRead s.ip = none ∨ s.memRead (s.ip + 1) = none := by
  rcases fetch_cases s with ⟨b0, b1, hfetch, h0, h1⟩ | ⟨hfetch, h0⟩ | ⟨b0, hfetch, h0, h1⟩
  · simp [hfetch, h0, h1]
  · simp [hfetch, h0]
  · simp [hfetch, h1]

end

/-- Settles O4: the two bytes are fetched, and what they decode to runs. -/
theorem stepRunsDecodedInstruction : Obligations.StepRunsDecodedInstruction :=
  fun _ _ _ _ _ hf he h0 h1 hd => step_of_instr hf he (fetch_of_reads h0 h1) hd

/-- Settles O6: the mark is looked at before anything else. -/
theorem markedStateHasNoStep : Obligations.MarkedStateHasNoStep :=
  fun _ _ hf => ⟨step_of_marked hf, by simp [State.isFinal, hf]⟩

/-- Settles O7: the hypothesis says in numbers that the state is at the end. -/
theorem endOfTextEndsTheRun : Obligations.EndOfTextEndsTheRun := by
  intro s hf hip
  have he : s.atEnd = true := atEnd_iff.2 hip
  exact ⟨step_of_atEnd hf he, by simp [State.isFinal, hf, he]⟩

/-- Settles O8: the fetch stops at the first byte that is missing, and the step with it. -/
theorem fetchOutsideTextIsStuck : Obligations.FetchOutsideTextIsStuck := by
  intro s hf he
  refine ⟨fun h0 => ?_, fun h0 h1 => ?_, ?_, ?_, ?_⟩
  · exact step_of_outside hf he (fetch_of_first_missing h0)
  · obtain ⟨b0, h0⟩ := Option.ne_none_iff_exists'.1 h0
    exact step_of_outside hf he (fetch_of_second_missing h0 h1)
  · have hstuck : s.isStuck = true ↔ s.memRead s.ip = none ∨ s.memRead (s.ip + 1) = none := by
      simp [State.isStuck, hf, he]
    simp only [hstuck, step_outside_iff hf he, fetch_outside_iff]
  · simp [State.isFaulted, hf]
  · simp [State.isFinal, he]

/-- Settles O9: bytes other than the opcode bytes are not in scope. -/
theorem otherBytesAreRefused : Obligations.OtherBytesAreRefused := by
  intro s b0 b1 hf he h0 h1 hother
  have hne : ¬(b0 = opcodeByte1 ∧ b1 = opcodeByte2) := not_and_or.2 hother
  exact step_of_notInScope hf he (fetch_of_reads h0 h1) (decode_other hne [])

end Sys2Proof.Machine
end

-- ==== Proofs: what CPUID and a step leave unchanged ====
section
/-! PROOFS. The faults of CPUID (60_exceptions.md), what CPUID and a step leave as it was, and the invariant of the machine
across a step. -/

namespace Sys2Proof.Machine

/-- CPUID answers one state, for the draws and choices of the state it runs in. -/
theorem exec_cpuid_next {s t : State} (h : exec .cpuid s = .next t) :
    t = cpuidWith (freshQuad s.draws) (freshKeep s.draws) s := by
  cases h
  rfl

/-- A step that answers a next state runs CPUID in a state without a mark. -/
theorem step_next_cpuid {s t : State} (h : step s = .next t) : s.fault = none ∧ exec .cpuid s = .next t := by
  obtain ⟨hf, -, b0, b1, i, rest, -, -, hexec⟩ := step_next h
  cases i
  exact ⟨hf, hexec⟩

/-- Everything a step that answers a next state can have done: it marked the state before, or completed a CPUID. -/
theorem step_next_cases {s t : State} (h : step s = .next t) : s.fault = none ∧
    ((s.cfg.hasCpuid = false ∧ t = raise (.undefinedOpcode s.ip) s) ∨
    (s.cfg.hasCpuid = true ∧ s.reg .eax = .noValue ∧ t = raise (.unwrittenRegister .eax) s) ∨
    (∃ any keep leaf, t = cpuidComplete any keep leaf s)) := by
  obtain ⟨hf, hexec⟩ := step_next_cpuid h
  obtain rfl := exec_cpuid_next hexec
  exact ⟨hf, (cpuidWith_cases _ _ s).imp_right (Or.imp_right fun ⟨leaf, _, _, hcomplete⟩ => ⟨_, _, leaf, hcomplete⟩)⟩

section
variable (any : Quad) (keep : Keep) (s : State)

/-- CPUID leaves the configuration. -/
@[simp] theorem cpuidWith_cfg : (cpuidWith any keep s).cfg = s.cfg := by
  rcases cpuidWith_cases any keep s with ⟨-, h⟩ | ⟨-, -, h⟩ | ⟨leaf, -, -, h⟩ <;> simp [h]

/-- CPUID leaves memory. -/
@[simp] theorem cpuidWith_mem : (cpuidWith any keep s).mem = s.mem := by
  rcases cpuidWith_cases any keep s with ⟨-, h⟩ | ⟨-, -, h⟩ | ⟨leaf, -, -, h⟩ <;> simp [h]

/-- CPUID leaves the flag. -/
@[simp] theorem cpuidWith_eflags21 : (cpuidWith any keep s).eflags21 = s.eflags21 := by
  rcases cpuidWith_cases any keep s with ⟨-, h⟩ | ⟨-, -, h⟩ | ⟨leaf, -, -, h⟩ <;> simp [h]

/-- CPUID sets a mark exactly where it cannot run. -/
theorem cpuidWith_fault_iff (hf : s.fault = none) :
    (cpuidWith any keep s).fault ≠ none ↔ s.cfg.hasCpuid = false ∨ s.reg .eax = .noValue := by
  rcases cpuidWith_cases any keep s with ⟨hc, h⟩ | ⟨-, he, h⟩ | ⟨leaf, hc, he, h⟩
  · simp [h, hc]
  · simp [h, he]
  · simp [h, hc, he, hf]

/-- A raised mark changes no byte of memory. -/
theorem raise_memRead (m : FaultMark) (a : Nat) : (raise m s).memRead a = s.memRead a := rfl

end

/-- Settles O16: the draws and choices are those of the state. -/
theorem cpuidRunsWithSomeFreeValues : Obligations.CpuidRunsWithSomeFreeValues :=
  fun s => ⟨freshQuad s.draws, freshKeep s.draws, execCpuid_eq s⟩

/-- Settles O17: `raise` sets the mark and nothing else. -/
theorem absentCpuidRaisesUndefinedOpcode : Obligations.AbsentCpuidRaisesUndefinedOpcode :=
  fun s h =>
    ⟨raise (.undefinedOpcode s.ip) s, congrArg _ (cpuidWith_absent h _ _), rfl, rfl, rfl, rfl, rfl, raise_memRead s _⟩

/-- Settles O18: `raise` sets the mark and nothing else. -/
theorem unwrittenLeafRaisesUnwrittenRegister : Obligations.UnwrittenLeafRaisesUnwrittenRegister :=
  fun s h he =>
    ⟨raise (.unwrittenRegister .eax) s, congrArg _ (cpuidWith_unwritten h he _ _), rfl, rfl, rfl, rfl, rfl,
      raise_memRead s _⟩

/-- Settles O19: of the three things CPUID can do, two set a mark. -/
theorem cpuidFaultsExactlyWhenItCannotRun : Obligations.CpuidFaultsExactlyWhenItCannotRun := by
  intro s t hf h
  rw [exec_cpuid_next h]
  exact cpuidWith_fault_iff _ _ s hf

/-- Settles O10: a step is CPUID, which leaves all four. -/
theorem noStepChangesConfigTextOrFlag : Obligations.NoStepChangesConfigTextOrFlag := by
  intro s t h
  obtain ⟨-, hexec⟩ := step_next_cpuid h
  obtain rfl := exec_cpuid_next hexec
  exact ⟨by simp, by simp, memRead_congr (by simp) (by simp), by simp⟩

/-- Settles O11: the three things CPUID can do. -/
theorem stepCompletesOrOnlyMarks : Obligations.StepCompletesOrOnlyMarks := by
  intro s t h
  obtain ⟨hf, ⟨-, rfl⟩ | ⟨-, -, rfl⟩ | ⟨any, keep, leaf, rfl⟩⟩ := step_next_cases h
  · exact .inr ⟨_, .inl rfl, rfl⟩
  · exact .inr ⟨_, .inr rfl, rfl⟩
  · exact .inl ⟨hf, rfl, ⟨_, rfl⟩, ⟨_, rfl⟩⟩

/-- The invariant carries over to a state that differs in the registers, `ip`, the mark and the draws only, when `ip` is an
address there and the mark fits. -/
theorem State.Inv.of_frame {s t : State} (h : s.Inv) (hcfg : t.cfg = s.cfg) (hmem : t.mem = s.mem)
    (hflag : t.eflags21 = s.eflags21) (hip : t.ip < t.cfg.space) (hmark : ∀ m, t.fault = some m → m.fits t) : t.Inv where
  cfgOk := hcfg ▸ h.cfgOk
  memOk := hmem ▸ h.memOk
  memInSpace := by
    rw [hmem, hcfg]
    exact h.memInSpace
  textOk a ha := by
    rw [memRead_congr hmem hcfg, State.textOffset, State.addr, State.textLength, hmem, hcfg]
    exact h.textOk a (hcfg ▸ ha)
  ipOk := hip
  flagOk := by
    rw [hflag, hcfg]
    exact h.flagOk
  markOk := hmark

/-- A mark that fits keeps the invariant. -/
theorem State.Inv.raise_of_fits {s : State} (h : s.Inv) {m : FaultMark} (hfits : m.fits (raise m s)) :
    (raise m s).Inv :=
  h.of_frame rfl rfl rfl h.ipOk fun _ hm => Option.some.inj hm ▸ hfits

/-- A CPUID that completes keeps the invariant: the new `ip` is taken modulo the size of the space. -/
theorem State.Inv.cpuidComplete_of_unmarked {s : State} (h : s.Inv) (hf : s.fault = none) (any : Quad) (keep : Keep)
    (leaf : Word) : (cpuidComplete any keep leaf s).Inv := by
  refine h.of_frame rfl rfl rfl (Nat.mod_lt _ (Nat.zero_lt_of_lt h.ipOk)) fun m hm => ?_
  have hnone : s.fault = some m := hm
  rw [hf] at hnone
  cases hnone

/-- Settles O12: the mark that a faulting CPUID sets fits, and a CPUID that completes leaves `ip` an address. -/
theorem stepKeepsInvariant : Obligations.StepKeepsInvariant := by
  intro s t hinv h
  obtain ⟨hf, ⟨hc, rfl⟩ | ⟨hc, he, rfl⟩ | ⟨any, keep, leaf, rfl⟩⟩ := step_next_cases h
  · exact hinv.raise_of_fits ⟨rfl, hc⟩
  · exact hinv.raise_of_fits ⟨rfl, he, hc⟩
  · exact hinv.cpuidComplete_of_unmarked hf any keep leaf

end Sys2Proof.Machine
end

-- ==== Proofs: a text that is placed ====
section
/-! PROOFS. The text placed in an empty memory (20_memory.md R45, R46): in a launch state (70_reset_and_hazards.md R192) and
by a table word placed where the machine fetches. -/

namespace Sys2Proof.Machine

/-! ## Addresses and offsets -/

/-- The offset of the `i`-th address from `a` on is `i`. -/
theorem offset_of_address {space i : Nat} (a : Nat) (hi : i < space) :
    ((a + i) % space + space - a % space) % space = i := by
  have ha := Nat.mod_lt a (Nat.zero_lt_of_lt hi)
  have hsum := mod_lt_twice (n := a % space + i) (space := space) (by omega)
  rw [Nat.mod_add_mod] at hsum
  have hoff := mod_lt_twice (n := (a + i) % space + space - a % space) (space := space) (by split at hsum <;> omega)
  split at hsum <;> split at hoff <;> omega

/-- An address is as far from `a` as its offset says. -/
theorem address_of_offset {space x : Nat} (a : Nat) (hx : x < space) :
    (a + (x + space - a % space) % space) % space = x := by
  have ha := Nat.mod_lt a (Nat.zero_lt_of_lt hx)
  calc (a + (x + space - a % space) % space) % space
      = (a % space + (x + space - a % space)) % space := by rw [Nat.add_mod_mod, Nat.mod_add_mod]
    _ = (x + space) % space := by congr 1; omega
    _ = x := by rw [Nat.add_mod_right, Nat.mod_eq_of_lt hx]

/-! ## A text in an empty memory -/

section
variable {space : Nat} {bs : List Byte} (a : Nat)

/-- Byte `i` of the text reads back at the `i`-th address. -/
theorem read_place_nil (hl : bs.length ≤ space) {i : Nat} (hi : i < bs.length) :
    Memory.read (Memory.place space [] a bs) ((a + i) % space) = some bs[i] := by
  have hoff : ((a + i) % space + space - a % space) % space = i := offset_of_address a (by omega)
  rw [read_place bs [] a _ (Nat.mod_lt _ (by omega)) hl]
  simp only [hoff, hi, dif_pos]

/-- An address holds a byte exactly where its offset lies in the text. -/
theorem isSome_read_place_nil (hl : bs.length ≤ space) {x : Nat} (hx : x < space) :
    (Memory.read (Memory.place space [] a bs) x).isSome = true ↔ (x + space - a % space) % space < bs.length := by
  rw [read_place bs [] a x hx hl]
  split <;> simp [*]

/-- An address that is none of the text's reads nothing. -/
theorem read_place_nil_none (hl : bs.length ≤ space) {x : Nat} (hx : x < space)
    (hout : ∀ i, i < bs.length → x ≠ (a + i) % space) : Memory.read (Memory.place space [] a bs) x = none := by
  by_contra hread
  have hin := (isSome_read_place_nil a hl hx).1 (Option.isSome_iff_ne_none.2 hread)
  exact hout _ hin (address_of_offset a hx).symm

/-- A text in an empty memory is as long as its bytes. -/
theorem length_place_nil (hl : bs.length ≤ space) : (Memory.place space [] a bs).length = bs.length := by
  rw [length_place bs [] a List.Pairwise.nil hl fun _ _ => rfl]
  exact Nat.zero_add _

end

/-! ## Launch states -/

/-- Settles O15: a launch state has its text placed in an empty memory. -/
theorem textReadsBackAndNothingElse : Obligations.TextReadsBackAndNothingElse := by
  intro c code r flag draws hl
  refine ⟨fun i hi => read_place_nil c.codeBase hl hi, fun a hout => ?_, length_place_nil c.codeBase hl⟩
  exact read_place_nil_none c.codeBase hl (Nat.mod_lt _ (Nat.two_pow_pos _)) hout

/-- In a fresh state the flag reads ID_STUCK where it cannot be changed (70_reset_and_hazards.md R192). -/
theorem freshFlag21_stuck {c : Config} (he : c.hasEflags = true) (hc : c.hasCpuid = false) (b : Bit) :
    freshFlag21 c b = c.idStuck := by
  simp [freshFlag21, he, hc]

/-- CODE_BASE of a legal configuration is an address. -/
theorem codeBase_lt_of_wf {c : Config} (h : c.wf = true) : c.codeBase < c.space := by
  obtain ⟨-, -, hbase, -⟩ := c.wf_iff.1 h
  exact of_decide_eq_true hbase

/-- Settles O14: the mapped addresses of a placed text are those whose offset lies in it. -/
theorem launchMeetsInvariant : Obligations.LaunchMeetsInvariant := by
  intro c code r flag draws hwf hl
  have hbase := codeBase_lt_of_wf hwf
  refine ⟨hwf, launch_wf c code r flag draws, ?_, fun a ha => ?_, hbase, fun he hc => freshFlag21_stuck he hc flag, ?_⟩
  · exact place_inSpace (Nat.zero_lt_of_lt hbase) code [] _ (by simp)
  · have hread := isSome_read_place_nil c.codeBase hl ha
    rw [Nat.mod_eq_of_lt hbase] at hread
    have hlen : (State.launch c code r flag draws).textLength = code.length := length_place_nil c.codeBase hl
    have haddr : (State.launch c code r flag draws).addr a = a := Nat.mod_eq_of_lt ha
    rw [State.memRead, haddr, hlen]
    exact hread
  · intro m hm
    cases hm

/-- The state after reset is a launch state with no text. -/
theorem resetWith_eq_launch (c : Config) : State.resetWith c = State.launch c [] (State.resetWith c).regs 0 0 := rfl

/-- Settles O13: CFG-A is legal, and reset is a launch state. -/
theorem resetMeetsInvariant : Obligations.ResetMeetsInvariant := by
  unfold Obligations.ResetMeetsInvariant
  rw [State.reset, resetWith_eq_launch]
  exact launchMeetsInvariant Config.cfgA [] _ 0 0 (by decide) (Nat.zero_le _)

/-! ## A table word placed where the machine fetches -/

/-- Placing a table word of 16 bits is placing its two bytes. -/
theorem withFetchWord_eq (s : State) (w : Nat) :
    s.withFetchWord 16 w = s.loadText s.ip [BitVec.ofNat 8 w, BitVec.ofNat 8 (w / 256)] := by
  rw [State.withFetchWord, tableBytes_sixteen]

/-- An address space of an `ip` at least 2 bits wide has at least four addresses. -/
theorem four_le_space {c : Config} (h : 2 ≤ c.ipWidth) : 4 ≤ c.space :=
  Nat.pow_le_pow_right (n := 2) (by decide) h

section
variable {s : State} (b0 b1 : Byte)

/-- Two bytes placed at `ip` are fetched. -/
theorem fetch_loadText_two (hspace : 2 ≤ s.cfg.space) : fetch (s.loadText s.ip [b0, b1]) = .bytes b0 b1 :=
  fetch_of_reads (read_place_nil s.ip (bs := [b0, b1]) hspace Nat.zero_lt_two)
    (read_place_nil s.ip (bs := [b0, b1]) hspace Nat.one_lt_two)

/-- With two bytes placed at `ip`, `ip` is two addresses before the end, which is another address when there are more than
two of them. -/
theorem atEnd_loadText_two (hspace : 2 < s.cfg.space) : (s.loadText s.ip [b0, b1]).atEnd = false := by
  have hlen : (s.loadText s.ip [b0, b1]).textLength = 2 := length_place_nil s.ip (bs := [b0, b1]) (Nat.le_of_lt hspace)
  have hip : (s.loadText s.ip [b0, b1]).addr (s.loadText s.ip [b0, b1]).ip = s.ip % s.cfg.space := rfl
  have hend : (s.loadText s.ip [b0, b1]).textEnd = (s.ip % s.cfg.space + 2) % s.cfg.space := by
    rw [State.textEnd, hlen]
    rfl
  rw [Bool.eq_false_iff, ne_eq, atEnd_iff, hip, hend]
  generalize s.cfg.space = space at hspace
  have hlt := Nat.mod_lt s.ip (Nat.zero_lt_of_lt hspace)
  have hwrap := mod_lt_twice (n := s.ip % space + 2) (space := space) (by omega)
  split at hwrap <;> omega

end

/-- Settles O5: the two bytes of the word are fetched, and decode as the word does. -/
theorem placedWordIsWhatStepRuns : Obligations.PlacedWordIsWhatStepRuns := by
  intro s w hwidth hf
  have hspace := four_le_space hwidth
  rw [withFetchWord_eq, decodeTableWord_eq_none_iff, tableBytes_sixteen]
  have hend := atEnd_loadText_two (s := s) (BitVec.ofNat 8 w) (BitVec.ofNat 8 (w / 256)) (by omega)
  have hfetch := fetch_loadText_two (s := s) (BitVec.ofNat 8 w) (BitVec.ofNat 8 (w / 256)) (by omega)
  refine ⟨fun i hi => ?_, fun hnone => step_of_notInScope hf hend hfetch hnone, rfl, rfl, rfl, rfl⟩
  rw [decodeTableWord_eq_some_iff, tableBytes_sixteen] at hi
  exact step_of_instr hf hend hfetch hi

end Sys2Proof.Machine
end

-- ==== Proofs: the leaves, with their frame ====
section
/-! PROOFS. What a CPUID that runs leaves in the registers and what it leaves alone (40_cpuid_invocation.md sections 3 and
5), for every leaf, and the range rule (R87). -/

namespace Sys2Proof.Machine

section
variable {s t : State} {leaf : Word}

/-- A CPUID that runs leaves the value of its leaf in the registers, for some draws. -/
theorem leafInRegs_of_exec (h : CpuidRuns s leaf) (hexec : exec .cpuid s = .next t) :
    ∃ any, LeafInRegs s t leaf (leafValue s.cfg leaf any) := by
  rw [exec_cpuid_of_runs h] at hexec
  cases hexec
  exact ⟨_, cpuidComplete_leafInRegs _ _ _ s⟩

/-- A CPUID that runs leaves its frame alone. -/
theorem cpuidFrame_of_exec (h : CpuidRuns s leaf) (hexec : exec .cpuid s = .next t) : CpuidFrame s t := by
  rw [exec_cpuid_of_runs h] at hexec
  cases hexec
  exact ⟨rfl, rfl, rfl, memRead_congr rfl rfl⟩

/-- A CPUID that runs moves `ip` past itself. -/
theorem pastCpuid_of_exec (h : CpuidRuns s leaf) (hexec : exec .cpuid s = .next t) : PastCpuid s t := by
  rw [exec_cpuid_of_runs h] at hexec
  cases hexec
  rfl

/-- A CPUID that runs a leaf of value `f` leaves that value in the registers, its frame alone and `ip` past itself. -/
theorem exec_cpuid_returns {f : Quad → Quad} (h : CpuidRuns s leaf) (hf : ∀ any, leafValue s.cfg leaf any = f any) :
    ∃ t any, exec .cpuid s = .next t ∧ LeafInRegs s t leaf (f any) ∧ CpuidFrame s t ∧ PastCpuid s t := by
  obtain ⟨t, any, hexec, hregs⟩ := exec_cpuid_leafInRegs h
  exact ⟨t, any, hexec, hf any ▸ hregs, cpuidFrame_of_exec h hexec, pastCpuid_of_exec h hexec⟩

end

/-- Settles O20: the registers hold the value of the leaf or what note 1 let them keep. -/
theorem everyLeafCompletes : Obligations.EveryLeafCompletes := by
  intro s leaf h
  obtain ⟨t, any, hexec, hregs⟩ := exec_cpuid_leafInRegs h
  refine ⟨t, hexec, cpuidFrame_of_exec h hexec, pastCpuid_of_exec h hexec, ⟨_, hregs.eax⟩, ⟨_, hregs.edx⟩, ?_, ?_⟩
  · exact (hregs .ebx).imp (fun hw => ⟨_, hw⟩) fun ⟨⟨hkeeps, hpos, _⟩, hold⟩ => ⟨hkeeps, hpos, hold⟩
  · exact (hregs .ecx).imp (fun hw => ⟨_, hw⟩) fun ⟨⟨hkeeps, hpos, _⟩, hold⟩ => ⟨hkeeps, hpos, hold⟩

/-! ## Which leaves are supported -/

section
variable {c : Config} {leaf : Word}

/-- Bit 31 of a leaf says whether it is at least 2^31. -/
theorem getLsbD_31_eq (leaf : Word) : leaf.getLsbD 31 = decide (2 ^ 31 ≤ leaf.toNat) :=
  leaf.msb_eq_getLsbD_last.symm.trans leaf.msb_eq_decide

/-- A basic leaf up to MAX_BASIC is supported. -/
theorem supported_of_le_maxBasic (hclass : leaf.getLsbD 31 = false) (hmax : leaf ≤ c.maxBasic) :
    supported c leaf = true := by
  rw [supported_basic c hclass]
  exact decide_eq_true hmax

/-- An extended leaf up to MAX_EXT is supported where there are extended leaves. -/
theorem supported_of_le_maxExt (hclass : leaf.getLsbD 31 = true) (hext : c.hasExt = true) (hmax : leaf ≤ c.maxExt) :
    supported c leaf = true := by
  rw [supported_ext c hclass, hext]
  exact decide_eq_true hmax

/-- In a legal configuration with extended leaves, MAX_EXT is at least 80000000h (40_cpuid_invocation.md R87). -/
theorem le_maxExt_of_wf (hwf : c.wf = true) (hext : c.hasExt = true) : 0x80000000 ≤ c.maxExt := by
  obtain ⟨-, -, -, -, hmax, -⟩ := c.wf_iff.1 hwf
  have hbit : c.maxExt.getLsbD 31 = true := by simpa [Config.maxExtOk, hext] using hmax
  rw [getLsbD_31_eq] at hbit
  exact BitVec.le_def.2 (of_decide_eq_true hbit)

end

/-- Settles O34: the bit that separates the classes compares the leaf with 2^31. -/
theorem leafSupportedExactlyInItsRange : Obligations.LeafSupportedExactlyInItsRange := by
  intro c hwf
  refine ⟨fun leaf hlt => ?_, fun leaf hge => ?_, supported_zero c, ?_⟩
  · have hclass : leaf.getLsbD 31 = false := by rw [getLsbD_31_eq]; simpa using hlt
    rw [supported_basic c hclass, decide_eq_true_iff, BitVec.le_def]
  · have hclass : leaf.getLsbD 31 = true := by rw [getLsbD_31_eq]; simpa using hge
    rw [supported_ext c hclass, Bool.and_eq_true, decide_eq_true_iff, BitVec.le_def]
  · rw [supported_ext c rfl, Bool.and_eq_true, decide_eq_true_iff]
    exact and_iff_left_of_imp (le_maxExt_of_wf hwf)

/-! ## The basic leaves -/

/-- Settles O21: the words of leaf 0 are packed characters of the vendor string. -/
theorem leafZeroReturnsMaxBasicAndVendor : Obligations.LeafZeroReturnsMaxBasicAndVendor := by
  intro s h
  obtain ⟨t, hexec, hregs⟩ := exec_cpuid_leafZero h
  exact ⟨t, _, _, _, hexec, hregs.eax, hregs.held_of_leafZero .ebx, unpack4_pack4 .., hregs.edx, unpack4_pack4 ..,
    hregs.held_of_leafZero .ecx, unpack4_pack4 .., cpuidFrame_of_exec h hexec, pastCpuid_of_exec h hexec⟩

/-- Settles O24: the words of leaf 1, with the frame of a CPUID that runs. -/
theorem leafOneReturnsSignatureAndFeatures : Obligations.LeafOneReturnsSignatureAndFeatures := by
  intro s h hmax
  obtain ⟨t, hexec, hregs⟩ := exec_cpuid_leafOne h hmax
  exact ⟨t, hexec, hregs.eax, hregs.writtenOrKept .ebx, hregs.writtenOrKept .ecx, hregs.edx, cpuidFrame_of_exec h hexec,
    pastCpuid_of_exec h hexec⟩

/-- Settles O26: the words of leaf 2, with the frame of a CPUID that runs. -/
theorem leafTwoReturnsDescriptors : Obligations.LeafTwoReturnsDescriptors := by
  intro s h hmax
  have hvalue := fun any => leafValue_2 s.cfg any (supported_of_le_maxBasic rfl hmax)
  obtain ⟨t, -, hexec, hregs, hframe, hip⟩ := exec_cpuid_returns h hvalue
  exact ⟨t, hexec, hregs.eax, hregs.writtenOrKept .ebx, hregs.writtenOrKept .ecx, hregs.edx, hframe, hip⟩

/-- The two halves of a 64-bit value make it again. -/
theorem pairValue_halves (x : BitVec 64) : pairValue (x.extractLsb' 32 32) (x.extractLsb' 0 32) = x :=
  (BitVec.extractLsb'_append_extractLsb'_eq_extractLsb' (h := rfl)).trans BitVec.extractLsb'_eq_self

/-- Settles O27: each layout fills its registers with the halves of the serial number. -/
theorem leafThreeReturnsSerialNumber : Obligations.LeafThreeReturnsSerialNumber := by
  intro s h hmax henabled
  have hvalue := fun any => leafValue_3 s.cfg any (supported_of_le_maxBasic rfl hmax)
  obtain ⟨t, any, hexec, hregs, hframe, hip⟩ := exec_cpuid_returns h hvalue
  rw [leaf3, if_pos henabled] at hregs
  refine ⟨t, hexec, hframe, hip, ?_, ?_, ?_⟩ <;> intro hlayout <;> rw [hlayout] at hregs
  · exact ⟨_, _, hregs.edx, hregs.writtenOrKept .ecx, pairValue_halves _⟩
  · exact ⟨_, _, hregs.writtenOrKept .ebx, hregs.eax, pairValue_halves _⟩
  · exact hregs.writtenOrKept .ebx

/-! ## The extended leaves -/

/-- Settles O28: a legal MAX_EXT makes the leaf supported. -/
theorem leafExtZeroReturnsMaxExt : Obligations.LeafExtZeroReturnsMaxExt := by
  intro s hwf h hext
  have hvalue := fun any => leafValue_ext0 s.cfg any (supported_of_le_maxExt rfl hext (le_maxExt_of_wf hwf hext))
  obtain ⟨t, any, hexec, hregs, hframe, hip⟩ := exec_cpuid_returns h hvalue
  exact ⟨t, hexec, hregs.eax, hframe, hip⟩

/-- Leaf 80000001h, where it is supported, leaves its words in the registers, for some draws
(42_cpuid_extended_leaves.md R142). -/
theorem leafInRegs_extOne {s t : State} (h : CpuidRuns s 0x80000001) (hext : s.cfg.hasExt = true)
    (hmax : 0x80000001 ≤ s.cfg.maxExt) (hexec : exec .cpuid s = .next t) :
    ∃ any, LeafInRegs s t 0x80000001 (leafExt1 s.cfg any) := by
  obtain ⟨any, hregs⟩ := leafInRegs_of_exec h hexec
  exact ⟨any, leafValue_ext1 s.cfg any (supported_of_le_maxExt rfl hext hmax) ▸ hregs⟩

/-- Settles O29: leaf 80000001h overwrites ECX and EDX. -/
theorem leafExtOneReturnsExtendedFeatures : Obligations.LeafExtOneReturnsExtendedFeatures := by
  intro s h hext hmax
  have hexec := exec_cpuid_of_runs h
  obtain ⟨any, hregs⟩ := leafInRegs_extOne h hext hmax hexec
  exact ⟨_, hexec, hregs.edx, hregs.writtenOrKept .ecx, cpuidFrame_of_exec h hexec, pastCpuid_of_exec h hexec⟩

/-- Settles O32: leaf 80000006h overwrites ECX. -/
theorem leafExtSixReturnsL2Info : Obligations.LeafExtSixReturnsL2Info := by
  intro s h hext hmax
  have hvalue := fun any => leafValue_ext6 s.cfg any (supported_of_le_maxExt rfl hext hmax)
  obtain ⟨t, any, hexec, hregs, hframe, hip⟩ := exec_cpuid_returns h hvalue
  exact ⟨t, hexec, hregs.writtenOrKept .ecx, hframe, hip⟩

/-- Settles O33: leaf 80000008h overwrites EAX. -/
theorem leafExtEightReturnsAddressSizes : Obligations.LeafExtEightReturnsAddressSizes := by
  intro s h hext hmax
  have hvalue := fun any => leafValue_ext8 s.cfg any (supported_of_le_maxExt rfl hext hmax)
  obtain ⟨t, any, hexec, hregs, hframe, hip⟩ := exec_cpuid_returns h hvalue
  exact ⟨t, hexec, hregs.eax, hframe, hip⟩

/-! ## The brand string -/

section
variable (c : Config)

/-- A word of the brand string is four of its characters. -/
theorem unpack4_brandWord (i : Fin 12) : unpack4 (brandWord c i) = (c.brand.toList.drop (4 * i)).take 4 := by
  rw [brandWord, unpack4_pack4]
  apply List.ext_getElem
  · simp
    omega
  · intro k hk _
    have : k = 0 ∨ k = 1 ∨ k = 2 ∨ k = 3 := by simp at hk; omega
    rcases this with rfl | rfl | rfl | rfl <;> simp

/-- A leaf of the brand string is sixteen of its characters. -/
theorem brandBytes_leafBrand (j : Fin 3) : brandBytes (leafBrand c j) = (c.brand.toList.drop (16 * j)).take 16 := by
  rw [show 16 = 4 + 4 + 4 + 4 from rfl]
  simp only [brandBytes, leafBrand, unpack4_brandWord, List.take_add, List.drop_drop, Nat.mul_add, ← Nat.mul_assoc]

/-- The three leaves of the brand string are the whole of it. -/
theorem brandBytes_three :
    brandBytes (leafBrand c 0) ++ brandBytes (leafBrand c 1) ++ brandBytes (leafBrand c 2) = c.brand.toList := by
  simp only [brandBytes_leafBrand]
  change (c.brand.toList.drop 0).take 16 ++ (c.brand.toList.drop 16).take 16 ++ (c.brand.toList.drop (16 + 16)).take 16 = _
  rw [List.drop_zero, ← List.take_add, ← List.take_add]
  exact List.take_of_length_le (by simp)

/-- Leaf 80000002h + j is that part of the brand string. -/
theorem leafValue_brand (j : Fin 3) {leaf : Word} (hleaf : leaf = BitVec.ofNat 32 (0x80000002 + j))
    (h : supported c leaf = true) (any : Quad) : leafValue c leaf any = leafBrand c j := by
  subst hleaf
  match j, h with
  | 0, h => exact leafValue_ext2 c any h
  | 1, h => exact leafValue_ext3 c any h
  | 2, h => exact leafValue_ext4 c any h

end

/-- Settles O30: the four words of the leaf are its sixteen characters. -/
theorem brandLeafReturnsSixteenCharacters : Obligations.BrandLeafReturnsSixteenCharacters := by
  intro s leaf j hj hleaf h hext hmax
  have hclass : leaf.getLsbD 31 = true := by
    rw [hleaf, getLsbD_31_eq, BitVec.toNat_ofNat, decide_eq_true_iff]
    omega
  have hvalue := leafValue_brand s.cfg ⟨j, hj⟩ hleaf (supported_of_le_maxExt hclass hext hmax)
  obtain ⟨t, -, hexec, hregs, hframe, hip⟩ := exec_cpuid_returns h hvalue
  exact ⟨t, _, _, _, _, hexec, hregs.eax, hregs.writtenOrKept .ebx, hregs.writtenOrKept .ecx, hregs.edx,
    brandBytes_leafBrand s.cfg ⟨j, hj⟩, hframe, hip⟩

/-- Outside note 1 all four registers hold the words of the leaf. -/
theorem LeafInRegs.held_of_keepsNone {s t : State} {leaf : Word} {v : Quad} (h : LeafInRegs s t leaf v)
    (hkeeps : s.cfg.keepsEbxEcx = false) (r : Reg) : t.reg r = .held (quadGet v r) :=
  h.held fun ⟨hkept, _⟩ => Bool.false_ne_true (hkeeps.symm.trans hkept)

/-- Outside note 1 a leaf of the brand string leaves its words in all four registers. -/
theorem held_brand_of_keepsNone {s t : State} {c : Config} {leaf : Word} (j : Fin 3)
    (hleaf : leaf = BitVec.ofNat 32 (0x80000002 + j)) (hc : s.cfg = c) (hkeeps : c.keepsEbxEcx = false)
    (hsupported : supported c leaf = true) (h : CpuidRuns s leaf) (hexec : exec .cpuid s = .next t) (r : Reg) :
    t.reg r = .held (quadGet (leafBrand c j) r) := by
  subst hc
  obtain ⟨any, hregs⟩ := leafInRegs_of_exec h hexec
  rw [leafValue_brand s.cfg j hleaf hsupported any] at hregs
  exact hregs.held_of_keepsNone hkeeps r

/-- The brand string of a legal configuration has a NUL (42_cpuid_extended_leaves.md R151), so it is read up to less than
its whole length. -/
theorem length_upToNul_brand_lt {c : Config} (h : c.wf = true) : (upToNul c.brand.toList).length < 48 := by
  obtain ⟨-, -, -, -, -, -, -, -, -, -, -, -, hbrand, -⟩ := c.wf_iff.1 h
  obtain ⟨b, hmem, hnul⟩ := List.any_eq_true.1 hbrand
  have hinit : upToNul c.brand.toList <+: c.brand.toList := List.takeWhile_prefix _
  have hne : upToNul c.brand.toList ≠ c.brand.toList := fun heq => by
    exact absurd (List.takeWhile_eq_self_iff.1 heq b hmem) (by simpa using hnul)
  have hlt := lt_of_le_of_ne hinit.length_le fun heq => hne (hinit.eq_of_length heq)
  rwa [Vector.length_toList] at hlt

/-- Settles O31: the three leaves hold the whole string. -/
theorem brandStringReadsBack : Obligations.BrandStringReadsBack := by
  intro s2 s3 s4 t2 t3 t4 hc3 hc4 hwf hkeeps hext hmax h2 h3 h4 he2 he3 he4
  have hsupported {leaf : Word} (hclass : leaf.getLsbD 31 = true) (hle : leaf ≤ 0x80000004) :
      supported s2.cfg leaf = true := supported_of_le_maxExt hclass hext (BitVec.le_trans hle hmax)
  refine ⟨leafBrand s2.cfg 0, leafBrand s2.cfg 1, leafBrand s2.cfg 2, ?_, ?_, ?_, brandBytes_three s2.cfg, ?_⟩
  · exact held_brand_of_keepsNone 0 rfl rfl hkeeps (hsupported rfl (by decide)) h2 he2
  · exact held_brand_of_keepsNone 1 rfl hc3 hkeeps (hsupported rfl (by decide)) h3 he3
  · exact held_brand_of_keepsNone 2 rfl hc4 hkeeps (hsupported rfl (by decide)) h4 he4
  · rw [brandBytes_three]
    exact length_upToNul_brand_lt hwf

end Sys2Proof.Machine
end

-- ==== Proofs: named registers, draws and kept registers ====
section
/-! PROOFS. Which part of a result is the leaf's and which is a draw (40_cpuid_invocation.md R88 to R91), and what note 1
lets the registers keep (70_reset_and_hazards.md R196). -/

namespace Sys2Proof.Machine

/-! ## What the rule of a leaf names -/

/-- A leaf function overwrites the registers that `names` says, whatever the draws, and leaves the draw in the others
(40_cpuid_invocation.md R89). -/
def OverwritesExactly (names : Reg → Bool) (f : Quad → Quad) : Prop :=
  ∀ (any any' : Quad) (r : Reg), quadGet (f any) r = if names r then quadGet (f any') r else quadGet any r

/-- The same names and the same values overwrite the same. -/
theorem OverwritesExactly.congr {names names' : Reg → Bool} {f f' : Quad → Quad} (h : OverwritesExactly names f)
    (hnames : ∀ r, names' r = names r) (hvalue : ∀ any, f' any = f any) : OverwritesExactly names' f' := by
  rwa [funext hnames, funext hvalue]

/-- Four draws overwrite nothing. -/
theorem overwritesExactly_draws : OverwritesExactly (fun _ => false) fun any => any := fun _ _ _ => rfl

/-- A quad without draws overwrites everything. -/
theorem overwritesExactly_const (v : Quad) : OverwritesExactly (fun _ => true) fun _ => v := fun _ _ _ => rfl

section
variable (c : Config)

/-- Leaf 3 overwrites the registers of its layout, when the BIOS setting is on (41_cpuid_basic_leaves.md R121, R122). -/
theorem overwritesExactly_leaf3 (h : supported c 3#32 = true) : OverwritesExactly (leafNames c 3#32) (leaf3 c) := by
  intro any any' r
  cases henabled : c.psnEnabled with
  | false => simp [leafNames, leaf3, henabled]
  | true => cases hlayout : c.psnLayout <;> cases r <;> simp [leafNames, leaf3, quadGet, h, henabled, hlayout]

/-- 42_cpuid_extended_leaves.md R141. -/
theorem overwritesExactly_leafExt0 : OverwritesExactly (fun r => r == .eax) (leafExt0 c) := by
  intro any any' r
  cases r <;> rfl

/-- 42_cpuid_extended_leaves.md R142. -/
theorem overwritesExactly_leafExt1 : OverwritesExactly (fun r => r == .ecx || r == .edx) (leafExt1 c) := by
  intro any any' r
  cases r <;> rfl

/-- 42_cpuid_extended_leaves.md R154. -/
theorem overwritesExactly_leafExt6 : OverwritesExactly (fun r => r == .ecx) (leafExt6 c) := by
  intro any any' r
  cases r <;> rfl

/-- 42_cpuid_extended_leaves.md R156. -/
theorem overwritesExactly_leafExt8 : OverwritesExactly (fun r => r == .eax) (leafExt8 c) := by
  intro any any' r
  cases r <;> rfl

/-- The leaves whose rule names a register (40_cpuid_invocation.md R88). -/
def describedLeaves : List Word :=
  [0#32, 1#32, 2#32, 3#32, 0x80000000#32, 0x80000001#32, 0x80000002#32, 0x80000003#32, 0x80000004#32, 0x80000006#32,
    0x80000008#32]

/-- A described leaf that is supported overwrites exactly the registers that its rule names. -/
theorem overwritesExactly_of_described {leaf : Word} (hleaf : leaf ∈ describedLeaves) (h : supported c leaf = true) :
    OverwritesExactly (leafNames c leaf) (leafValue c leaf) := by
  simp only [describedLeaves, List.mem_cons, List.not_mem_nil, or_false] at hleaf
  rcases hleaf with rfl | rfl | rfl | rfl | rfl | rfl | rfl | rfl | rfl | rfl | rfl
  · exact (overwritesExactly_const _).congr (by simp [leafNames, h]) (leafValue_0 c)
  · exact (overwritesExactly_const _).congr (by simp [leafNames, h]) (leafValue_1 c · h)
  · exact (overwritesExactly_const _).congr (by simp [leafNames, h]) (leafValue_2 c · h)
  · exact (overwritesExactly_leaf3 c h).congr (fun _ => rfl) (leafValue_3 c · h)
  · exact (overwritesExactly_leafExt0 c).congr (by simp [leafNames, h]) (leafValue_ext0 c · h)
  · exact (overwritesExactly_leafExt1 c).congr (by simp [leafNames, h]) (leafValue_ext1 c · h)
  · exact (overwritesExactly_const _).congr (by simp [leafNames, h]) (leafValue_ext2 c · h)
  · exact (overwritesExactly_const _).congr (by simp [leafNames, h]) (leafValue_ext3 c · h)
  · exact (overwritesExactly_const _).congr (by simp [leafNames, h]) (leafValue_ext4 c · h)
  · exact (overwritesExactly_leafExt6 c).congr (by simp [leafNames, h]) (leafValue_ext6 c · h)
  · exact (overwritesExactly_leafExt8 c).congr (by simp [leafNames, h]) (leafValue_ext8 c · h)

/-- Any other leaf returns four draws (40_cpuid_invocation.md R90, R91, 42_cpuid_extended_leaves.md R153, R155). -/
theorem leafValue_of_not_described {leaf : Word} (hleaf : leaf ∉ describedLeaves) (any : Quad) :
    leafValue c leaf any = any := by
  simp only [describedLeaves, List.mem_cons, List.not_mem_nil, or_false, not_or] at hleaf
  simp [leafValue, leafUnsupported, leafReserved, leafUndocumented, hleaf]

/-- Any other leaf names no register. -/
theorem leafNames_of_not_described {leaf : Word} (hleaf : leaf ∉ describedLeaves) (r : Reg) :
    leafNames c leaf r = false := by
  simp only [describedLeaves, List.mem_cons, List.not_mem_nil, or_false, not_or] at hleaf
  have hgt : 2#32 < leaf := by bv_omega
  simp [leafNames, hleaf, hgt]

/-- Every leaf overwrites exactly the registers that its rule names. -/
theorem overwritesExactly_leafValue (leaf : Word) : OverwritesExactly (leafNames c leaf) (leafValue c leaf) := by
  cases h : supported c leaf with
  | false => exact overwritesExactly_draws.congr (fun r => by simp [leafNames, h]) (leafValue_unsupported c · h)
  | true =>
    by_cases hleaf : leaf ∈ describedLeaves
    · exact overwritesExactly_of_described c hleaf h
    · exact overwritesExactly_draws.congr (leafNames_of_not_described c hleaf) (leafValue_of_not_described c hleaf)

end

/-- Settles O35: the draws are the four words themselves. -/
theorem unnamedRegistersAdmitEveryValue : Obligations.UnnamedRegistersAdmitEveryValue := by
  intro s leaf q ⟨hcpuid, heax⟩
  refine ⟨q, fun keep r hunnamed => ?_⟩
  have hdraw := overwritesExactly_leafValue s.cfg leaf q q r
  rw [hunnamed] at hdraw
  rw [cpuidWith_held hcpuid heax]
  exact (cpuidComplete_leafInRegs q keep leaf s r).imp_left fun hwritten => hwritten.trans (congrArg _ hdraw)

/-- Settles O36: a named register holds no draw, unless it was kept. -/
theorem namedRegistersDependOnLeafAndConfigOnly : Obligations.NamedRegistersDependOnLeafAndConfigOnly := by
  intro s t u v leaf r hcfg hs ht hnamed hu hv
  obtain ⟨any, hu⟩ := leafInRegs_of_exec hs hu
  obtain ⟨any', hv⟩ := leafInRegs_of_exec ht hv
  have hsame := overwritesExactly_leafValue s.cfg leaf any any' r
  rw [hnamed] at hsame
  rw [← hcfg] at hv
  rcases hu r with hwritten | ⟨hmay, hkept⟩
  · rcases hv r with hwritten' | ⟨⟨hkeeps, hmay⟩, hkept⟩
    · exact .inl (hwritten.trans ((congrArg _ hsame).trans hwritten'.symm))
    · exact .inr ⟨⟨hcfg ▸ hkeeps, hmay⟩, .inr hkept⟩
  · exact .inr ⟨hmay, .inl hkept⟩

/-! ## The registers of note 1 -/

/-- Settles O37: above leaf 0 on a processor of note 1, only the choice decides. -/
theorem keptRegistersFourCombinations : Obligations.KeptRegistersFourCombinations := by
  intro s leaf any ⟨hcpuid, heax⟩ hkeeps hne
  have hpos : 0#32 < leaf := (BitVec.pos_iff_ne_zero leaf).2 hne
  refine ⟨leafValue s.cfg leaf any, fun keepB keepC => ?_⟩
  rw [cpuidWith_held hcpuid heax]
  simp [cpuidComplete, keepOrWrite, hkeeps, hpos, reg_eq]

/-- Settles O38: the test that lets a register be kept is false. -/
theorem nothingIsKeptOnLeafZeroOrNewProcessors : Obligations.NothingIsKeptOnLeafZeroOrNewProcessors := by
  intro s leaf any keep keep' ⟨hcpuid, heax⟩ hnone
  have hregs := cpuidComplete_leafInRegs any keep leaf s
  simp only [cpuidWith_held hcpuid heax]
  rcases hnone with hkeeps | rfl
  · exact ⟨by simp only [cpuidComplete, hkeeps, Bool.false_and], _, hregs.held_of_keepsNone hkeeps⟩
  · have hzero : decide ((0 : Word) < 0) = false := rfl
    exact ⟨by simp only [cpuidComplete, hzero, Bool.and_false, Bool.false_and], _, hregs.held_of_leafZero⟩

/-- A register that held 0 and may have been kept holds the word of the leaf or 0. -/
theorem WrittenOrKept.eq_or_zero {s t : State} {r : Reg} {v : Word} (h : WrittenOrKept s t r v) (hzero : s.reg r = .held 0) :
    ∃ w, t.reg r = .held w ∧ (w = v ∨ w = 0) := by
  rcases h with hwritten | ⟨-, hkept⟩
  · exact ⟨v, hwritten, .inl rfl⟩
  · exact ⟨0, hkept.trans hzero, .inr rfl⟩

/-- Settles O39: a kept register holds the 0 that was there, which reports nothing. -/
theorem zeroedRegistersReadTrueOrZero : Obligations.ZeroedRegistersReadTrueOrZero := by
  intro s h hmax hebx hecx
  obtain ⟨t, hexec, hregs⟩ := exec_cpuid_leafOne h hmax
  obtain ⟨b, hb, hbval⟩ := WrittenOrKept.eq_or_zero (hregs.writtenOrKept .ebx) hebx
  obtain ⟨w, hw, hwval⟩ := WrittenOrKept.eq_or_zero (hregs.writtenOrKept .ecx) hecx
  refine ⟨t, b, w, hexec, hb, hbval, hw, hwval, fun f hf => ?_⟩
  rcases hwval with rfl | rfl
  · exact hf
  · simp [reports] at hf

end Sys2Proof.Machine
end

-- ==== Proofs: detection by EFLAGS bit 21 ====
section
/-! PROOFS. The detection procedure (40_cpuid_invocation.md R84), and the flag after CPUID (R94). -/

namespace Sys2Proof.Machine

section
variable {s : State}

/-- Where the flag can be changed, detection sees it change, and the flag is put back. -/
theorem detectCpuid_changeable (he : s.cfg.hasEflags = true) (hc : s.cfg.hasCpuid = true) :
    detectCpuid s = .ok (true, s) := by
  have bit_not_bne : ∀ x : Bit, (~~~x != x) = true := by decide
  have hread := readFlag21_ok (s := s.setFlag21 (~~~s.eflags21)) he
  have hback := writeFlag21_changeable (s := s.setFlag21 (~~~s.eflags21)) he hc s.eflags21
  simp [detectCpuid, readFlag21_ok he, writeFlag21_changeable he hc, hread, hback, bit_not_bne, setFlag21_self]

/-- Without CPUID, detection compares the flag with ID_STUCK. -/
theorem detectCpuid_stuck (he : s.cfg.hasEflags = true) (hc : s.cfg.hasCpuid = false) :
    detectCpuid s = .ok (s.cfg.idStuck != s.eflags21, s.setFlag21 s.cfg.idStuck) := by
  have hread := readFlag21_ok (s := s.setFlag21 s.cfg.idStuck) he
  have hback := writeFlag21_stuck (s := s.setFlag21 s.cfg.idStuck) he hc s.eflags21
  simp [detectCpuid, readFlag21_ok he, writeFlag21_stuck he hc, hread, hback]

/-- Without EFLAGS, detection is refused. -/
theorem detectCpuid_refused (he : s.cfg.hasEflags = false) : detectCpuid s = .error .noEflags := by
  simp [detectCpuid, readFlag21_refused he]

end

/-- Settles O41: without CPUID the invariant says that the flag is ID_STUCK already. -/
theorem detectionFindsCpuidAndRestoresState : Obligations.DetectionFindsCpuidAndRestoresState := by
  intro s hinv he
  cases hc : s.cfg.hasCpuid with
  | true => exact detectCpuid_changeable he hc
  | false =>
    rw [detectCpuid_stuck he hc, ← hinv.flagOk he hc, setFlag21_self, bne_self_eq_false]

/-- Settles O42: the first read is refused already. -/
theorem flagPrimitivesRefusedWithoutEflags : Obligations.FlagPrimitivesRefusedWithoutEflags :=
  fun _ b he => ⟨readFlag21_refused he, writeFlag21_refused he b, detectCpuid_refused he⟩

section
variable {s t : State} (hcfg : t.cfg = s.cfg)
include hcfg

/-- Reading depends on the configuration and the flag alone. -/
theorem readFlag21_congr (hflag : t.eflags21 = s.eflags21) : readFlag21 t = readFlag21 s := by
  simp only [readFlag21, hcfg, hflag]

/-- Where a write succeeds depends on the configuration alone, and so does what is read after it. -/
theorem writeFlag21_congr {b : Bit} {s' : State} (hw : writeFlag21 b s = .ok s') :
    ∃ t', writeFlag21 b t = .ok t' ∧ readFlag21 t' = readFlag21 s' := by
  have he := hasEflags_of_writeFlag21_ok hw
  cases hc : s.cfg.hasCpuid with
  | true =>
    rw [writeFlag21_changeable he hc] at hw
    cases hw
    exact ⟨_, writeFlag21_changeable (hcfg ▸ he) (hcfg ▸ hc) b, readFlag21_congr hcfg rfl⟩
  | false =>
    rw [writeFlag21_stuck he hc] at hw
    cases hw
    exact ⟨_, writeFlag21_stuck (hcfg ▸ he) (hcfg ▸ hc) b, readFlag21_congr hcfg (congrArg Config.idStuck hcfg)⟩

/-- The answer of detection depends on the configuration and the flag alone. -/
theorem detectCpuid_congr (hflag : t.eflags21 = s.eflags21) :
    (detectCpuid t).map Prod.fst = (detectCpuid s).map Prod.fst := by
  cases he : s.cfg.hasEflags with
  | false => rw [detectCpuid_refused he, detectCpuid_refused (hcfg ▸ he)]
  | true =>
    cases hc : s.cfg.hasCpuid with
    | true => rw [detectCpuid_changeable he hc, detectCpuid_changeable (hcfg ▸ he) (hcfg ▸ hc)]; rfl
    | false => rw [detectCpuid_stuck he hc, detectCpuid_stuck (hcfg ▸ he) (hcfg ▸ hc), hcfg, hflag]; rfl

end

/-- Settles O43: CPUID leaves the configuration and the flag. -/
theorem cpuidLeavesTheFlagAsChangeable : Obligations.CpuidLeavesTheFlagAsChangeable := by
  intro s t hexec
  obtain rfl := exec_cpuid_next hexec
  have hcfg := cpuidWith_cfg (freshQuad s.draws) (freshKeep s.draws) s
  have hflag := cpuidWith_eflags21 (freshQuad s.draws) (freshKeep s.draws) s
  exact ⟨readFlag21_congr hcfg hflag, fun _ _ => writeFlag21_congr hcfg, detectCpuid_congr hcfg hflag⟩

end Sys2Proof.Machine
end

-- ==== Proofs: what a legal configuration shows ====
section
/-! PROOFS. The displayed family and model (41_cpuid_basic_leaves.md R106), and the constraints of a legal configuration
that show in the results (R115, R116, R122, R123, 42_cpuid_extended_leaves.md R145, R146). -/

namespace Sys2Proof

section
variable {c : Config} (hwf : c.wf = true)
include hwf

/-- On AMD processors there is no serial number (41_cpuid_basic_leaves.md R123). -/
theorem Config.psnLayout_amd_of_wf (hamd : c.vendor = vendorAuthenticAMD) : c.psnLayout = .none := by
  obtain ⟨-, -, -, -, -, -, -, -, -, hpsn, -⟩ := c.wf_iff.1 hwf
  simpa [Config.amdHasNoPsn, hamd] using hpsn

/-- On AMD processors the two flag words agree under the mask (42_cpuid_extended_leaves.md R145). -/
theorem Config.dupMask_amd_of_wf (hamd : c.vendor = vendorAuthenticAMD) :
    c.extFeatEdx &&& dupMask = c.feat1Edx &&& dupMask := by
  obtain ⟨-, -, -, -, -, -, -, -, -, -, hdup, -⟩ := c.wf_iff.1 hwf
  simpa [Config.amdDupOk, hamd] using hdup

/-- On Intel processors outside 64-bit mode the syscall bit is 0 (42_cpuid_extended_leaves.md R146). -/
theorem Config.syscall_intel_of_wf (hintel : c.vendor = vendorGenuineIntel) (hmode : c.mode64 = false) :
    c.extFeatEdx.getLsbD 11 = false := by
  obtain ⟨-, -, -, -, -, -, -, -, -, -, -, hsyscall, -⟩ := c.wf_iff.1 hwf
  simpa [Config.intelSyscallOk, hintel, hmode] using hsyscall

/-- On a Pentium Pro the sep bit is 1 (41_cpuid_basic_leaves.md R116). -/
theorem Config.sep_pentiumPro_of_wf (hintel : c.vendor = vendorGenuineIntel) (hfamily : c.family = 6)
    (hmodel : c.model = 1) : c.feat1Edx.getLsbD 11 = true := by
  obtain ⟨-, -, -, -, -, -, -, -, -, -, -, -, -, hsep⟩ := c.wf_iff.1 hwf
  simpa [Config.pentiumProSepOk, hintel, hfamily, hmodel] using hsep

/-- The pentium3 layout stands on a Pentium III of Intel (41_cpuid_basic_leaves.md R123). -/
theorem Config.pentium3_of_wf (h : c.psnLayout = .pentium3) : c.product = .pentium3 ∧ c.vendor = vendorGenuineIntel := by
  obtain ⟨-, -, -, -, -, -, -, hlayout, hvendor, -⟩ := c.wf_iff.1 hwf
  have hproduct : c.product = .pentium3 := by simpa [Config.psnLayoutOk, h] using hlayout
  exact ⟨hproduct, by simpa [Config.pentium3IsIntel, hproduct] using hvendor⟩

/-- The efficeon layout stands on an Efficeon (41_cpuid_basic_leaves.md R122). -/
theorem Config.efficeon_of_wf (h : c.psnLayout = .efficeon) : c.product = .efficeon := by
  obtain ⟨-, -, -, -, -, -, -, hlayout, -⟩ := c.wf_iff.1 hwf
  simpa [Config.psnLayoutOk, h] using hlayout

/-- The crusoe layout stands on a Crusoe (41_cpuid_basic_leaves.md R122). -/
theorem Config.crusoe_of_wf (h : c.psnLayout = .crusoe) : c.product = .crusoe := by
  obtain ⟨-, -, -, -, -, -, -, hlayout, -⟩ := c.wf_iff.1 hwf
  simpa [Config.psnLayoutOk, h] using hlayout

end

/-- The eighteen duplicated bits stand in the mask. -/
theorem dupMask_getLsbD {k : Nat} (hk : k ≤ 9 ∨ (12 ≤ k ∧ k ≤ 17) ∨ k = 23 ∨ k = 24) : dupMask.getLsbD k = true := by
  have hall : ∀ n < 32, (n ≤ 9 ∨ (12 ≤ n ∧ n ≤ 17) ∨ n = 23 ∨ n = 24) → dupMask.getLsbD n = true := by decide
  exact hall k (by omega) hk

/-- Words that agree under a mask agree in each of its bits. -/
theorem getLsbD_eq_of_and_eq {x y m : Word} (h : x &&& m = y &&& m) {k : Nat} (hk : m.getLsbD k = true) :
    x.getLsbD k = y.getLsbD k := by
  have hbit := congrArg (·.getLsbD k) h
  simpa [hk] using hbit

namespace Machine

/-- The displayed family of a signature is the sum of the two fields. -/
theorem displayFamily_signature (c : Config) : displayFamily (signature c) = c.family.toNat + c.extFamily.toNat := by
  obtain ⟨-, -, hfamily, -, -, hext, -⟩ := extractLsb'_signature c
  rw [displayFamily, familyOf, extFamilyOf, hfamily, hext]

/-- The displayed model of a signature is the sum of the model and sixteen times the extended model. -/
theorem displayModel_signature (c : Config) : displayModel (signature c) = c.model.toNat + 16 * c.extModel.toNat := by
  obtain ⟨-, hmodel, -, -, hext, -⟩ := extractLsb'_signature c
  rw [displayModel, modelOf, extModelOf, hmodel, hext, Nat.shiftLeft_eq, Nat.mul_comm]

/-- The concatenation of two four-bit fields as a number. -/
theorem toNat_append_four (hi lo : BitVec 4) : (hi ++ lo).toNat = lo.toNat + 16 * hi.toNat := by
  rw [BitVec.toNat_append, ← Nat.shiftLeft_add_eq_or_of_lt lo.isLt, Nat.shiftLeft_eq, Nat.mul_comm, Nat.add_comm]

/-- Settles O25: the fields are narrow enough for the bounds. -/
theorem displayedFamilyAndModelAreSums : Obligations.DisplayedFamilyAndModelAreSums := by
  intro s h hmax
  obtain ⟨t, hexec, hregs⟩ := exec_cpuid_leafOne h hmax
  have hfamily := displayFamily_signature s.cfg
  have hmodel := displayModel_signature s.cfg
  refine ⟨t, signature s.cfg, hexec, hregs.eax, hfamily, ?_, hmodel, hmodel.trans (toNat_append_four _ _).symm, ?_⟩
  · have := s.cfg.family.isLt
    have := s.cfg.extFamily.isLt
    omega
  · have := s.cfg.model.isLt
    have := s.cfg.extModel.isLt
    omega

/-- Settles O46: EDX holds the two flag words, which agree under the mask of the duplicated bits. -/
theorem amdDuplicatedBitsAgree : Obligations.AmdDuplicatedBitsAgree := by
  intro s t u v hcfg hwf hamd hs hmax ht hext hmaxExt hu hv
  obtain ⟨u', hu', hregs⟩ := exec_cpuid_leafOne hs hmax
  obtain rfl : u' = u := Host.Outcome.next.inj (hu'.symm.trans hu)
  obtain ⟨any, hregsExt⟩ := leafInRegs_extOne ht hext hmaxExt hv
  rw [← hcfg] at hregsExt
  have hdup := Config.dupMask_amd_of_wf hwf hamd
  exact ⟨s.cfg.feat1Edx, s.cfg.extFeatEdx, hregs.edx, hregsExt.edx,
    fun k hk => (getLsbD_eq_of_and_eq hdup (dupMask_getLsbD hk)).symm⟩

/-- Settles O47: EDX holds EXTFEAT_EDX. -/
theorem intelSyscallBitClearOutside64BitMode : Obligations.IntelSyscallBitClearOutside64BitMode := by
  intro s hwf hintel hmode h hext hmax
  have hexec := exec_cpuid_of_runs h
  obtain ⟨any, hregs⟩ := leafInRegs_extOne h hext hmax hexec
  exact ⟨_, s.cfg.extFeatEdx, hexec, hregs.edx, Config.syscall_intel_of_wf hwf hintel hmode⟩

/-- The signature of a Family 6 Model 1 processor of Intel is that of a Pentium Pro. -/
theorem isPentiumPro_signature {c : Config} (hintel : c.vendor = vendorGenuineIntel) (hfamily : c.family = 6)
    (hmodel : c.model = 1) : isPentiumPro c.vendor (signature c) = true := by
  obtain ⟨-, hsigModel, hsigFamily, -⟩ := extractLsb'_signature c
  simp [isPentiumPro, familyOf, modelOf, hsigModel, hsigFamily, hintel, hfamily, hmodel]

/-- Settles O48: the bit is set, and software recognises the Pentium Pro. -/
theorem pentiumProSysenterBitIsNotTrusted : Obligations.PentiumProSysenterBitIsNotTrusted := by
  intro s hwf hintel hfamily hmodel h hmax
  obtain ⟨t, hexec, hregs⟩ := exec_cpuid_leafOne h hmax
  have hpro := isPentiumPro_signature hintel hfamily hmodel
  exact ⟨t, signature s.cfg, s.cfg.feat1Edx, hexec, hregs.eax, hregs.edx,
    Config.sep_pentiumPro_of_wf hwf hintel hfamily hmodel, by rw [reportsSysenter, hpro]; rfl⟩

/-- Settles O52: the constraints on the layout, and O45 for the bit of an AMD processor. -/
theorem serialNumberStandsOnlyWhereListed : Obligations.SerialNumberStandsOnlyWhereListed := by
  intro s hwf
  refine ⟨fun hamd => ?_, Config.pentium3_of_wf hwf, Config.efficeon_of_wf hwf, Config.crusoe_of_wf hwf⟩
  have hnone := Config.psnLayout_amd_of_wf hwf hamd
  exact ⟨hnone, psnBitClearWithoutSerialNumber s hwf hnone⟩

end Machine

end Sys2Proof
end

-- ==== Proofs: the feature tables ====
section
/-! PROOFS. Each of the four feature tables gives the 32 bits to its features and to the reserved list, each bit once
(41_cpuid_basic_leaves.md R108, R109, 42_cpuid_extended_leaves.md R143, R144). -/

namespace Sys2Proof.Machine

/-- The listed features are all there are, and their bits with the reserved ones are 0 to 31, each once. -/
def PartitionsBits {α : Type} (features : List α) (bit : α → Nat) (reserved : List Nat) : Prop :=
  (∀ f, f ∈ features) ∧ (features.map bit ++ reserved).Perm (List.range 32)

section
variable {α : Type} {features : List α} {bit : α → Nat} {reserved : List Nat}

/-- No bit stands twice. -/
theorem PartitionsBits.nodup (h : PartitionsBits features bit reserved) : (features.map bit ++ reserved).Nodup :=
  h.2.nodup_iff.2 List.nodup_range

/-- The bit of a feature is below 32 and not reserved. -/
theorem PartitionsBits.lt_and_not_reserved (h : PartitionsBits features bit reserved) (f : α) :
    bit f < 32 ∧ bit f ∉ reserved := by
  have hmem : bit f ∈ features.map bit := List.mem_map_of_mem (h.1 f)
  exact ⟨List.mem_range.1 (h.2.mem_iff.1 (List.mem_append_left _ hmem)), List.disjoint_of_nodup_append h.nodup hmem⟩

/-- No two features share a bit. -/
theorem PartitionsBits.injective (h : PartitionsBits features bit reserved) (f g : α) (heq : bit f = bit g) : f = g :=
  List.inj_on_of_nodup_map h.nodup.of_append_left (h.1 f) (h.1 g) heq

/-- A bit below 32 that is not reserved has a feature. -/
theorem PartitionsBits.exists_feature (h : PartitionsBits features bit reserved) (k : Nat) (hk : k < 32)
    (hfree : k ∉ reserved) : ∃ f, bit f = k := by
  have hmem : k ∈ features.map bit ++ reserved := h.2.mem_iff.2 (List.mem_range.2 hk)
  obtain ⟨f, -, hf⟩ := List.mem_map.1 ((List.mem_append.1 hmem).resolve_right hfree)
  exact ⟨f, hf⟩

end

/-- The features of leaf 1 EDX in table order. -/
def allFeat1Edx : List Feat1Edx := (List.range 31).map Feat1Edx.ofNat

/-- The features of leaf 1 ECX in table order. -/
def allFeat1Ecx : List Feat1Ecx := (List.range 31).map Feat1Ecx.ofNat

/-- The features of leaf 80000001h EDX in table order. -/
def allFeatExtEdx : List FeatExtEdx := (List.range 29).map FeatExtEdx.ofNat

/-- The features of leaf 80000001h ECX in table order. -/
def allFeatExtEcx : List FeatExtEcx := (List.range 28).map FeatExtEcx.ofNat

/-- 41_cpuid_basic_leaves.md R108. -/
theorem partitionsBits_feat1Edx : PartitionsBits allFeat1Edx bitOfFeat1Edx reservedOfFeat1Edx :=
  ⟨fun f => by cases f <;> decide, by decide⟩

/-- 41_cpuid_basic_leaves.md R109. -/
theorem partitionsBits_feat1Ecx : PartitionsBits allFeat1Ecx bitOfFeat1Ecx reservedOfFeat1Ecx :=
  ⟨fun f => by cases f <;> decide, by decide⟩

/-- 42_cpuid_extended_leaves.md R143. -/
theorem partitionsBits_featExtEdx : PartitionsBits allFeatExtEdx bitOfFeatExtEdx reservedOfFeatExtEdx :=
  ⟨fun f => by cases f <;> decide, by decide⟩

/-- 42_cpuid_extended_leaves.md R144. -/
theorem partitionsBits_featExtEcx : PartitionsBits allFeatExtEcx bitOfFeatExtEcx reservedOfFeatExtEcx :=
  ⟨fun f => by cases f <;> decide, by decide⟩

/-- Settles O49: the four tables are partitions, and the masks are computed. -/
theorem featureTablesGiveEachBitOnce : Obligations.FeatureTablesGiveEachBitOnce :=
  ⟨partitionsBits_feat1Edx.lt_and_not_reserved, partitionsBits_feat1Ecx.lt_and_not_reserved,
    partitionsBits_featExtEdx.lt_and_not_reserved, partitionsBits_featExtEcx.lt_and_not_reserved,
    partitionsBits_feat1Edx.injective, partitionsBits_feat1Ecx.injective,
    partitionsBits_featExtEdx.injective, partitionsBits_featExtEcx.injective,
    partitionsBits_feat1Edx.exists_feature, partitionsBits_feat1Ecx.exists_feature,
    partitionsBits_featExtEdx.exists_feature, partitionsBits_featExtEcx.exists_feature, by decide⟩

end Sys2Proof.Machine
end

-- ==== Proofs: the state after reset ====
section
/-! PROOFS. What stands in the state right after reset (10_state.md section 9, 70_reset_and_hazards.md R191). -/

namespace Sys2Proof.Machine

/-- On an 80386 or later EDX holds RESET_DX, with zeros above it, after reset. -/
theorem resetWith_edx {c : Config} (h : c.hasEflags = true) :
    (State.resetWith c).reg .edx = .held (c.resetDx.setWidth 32) :=
  congrArg RegValue.held (if_pos h)

/-- Without EFLAGS EDX holds 0 after reset. -/
theorem resetWith_edx_zero {c : Config} (h : c.hasEflags = false) : (State.resetWith c).reg .edx = .held 0 := by
  simp [State.resetWith, reg_eq, h]

/-- A 16-bit value widened to 32 bits is its low half. -/
theorem extractLsb'_low_setWidth (x : BitVec 16) : (x.setWidth 32).extractLsb' 0 16 = x :=
  (BitVec.extractLsb'_setWidth_of_le (by decide)).trans BitVec.extractLsb'_eq_self

/-- A 16-bit value widened to 32 bits has zeros in the high half. -/
theorem extractLsb'_high_setWidth (x : BitVec 16) : (x.setWidth 32).extractLsb' 16 16 = 0 := by
  ext i hi
  simp

/-- DX is bits 15:0 of the word in EDX. -/
theorem dx_of_edx {s : State} {w : Word} (h : s.reg .edx = .held w) : s.dx = some (w.extractLsb' 0 16) := by
  have hedx : s.regs.edx = .held w := h
  simp [State.dx, hedx, BitVec.setWidth_eq_extractLsb']

/-- Settles O50: EDX holds RESET_DX widened. -/
theorem resetLeavesIdentificationInDx : Obligations.ResetLeavesIdentificationInDx := by
  intro c h
  have hlow := extractLsb'_low_setWidth c.resetDx
  exact ⟨_, resetWith_edx h, hlow, (dx_of_edx (resetWith_edx h)).trans (congrArg some hlow)⟩

/-- Settles O51: reset writes each field outright. -/
theorem resetLeavesTheChosenValues : Obligations.ResetLeavesTheChosenValues := by
  intro c
  refine ⟨rfl, rfl, rfl, fun r hr => ?_, fun _ => rfl, fun he => ?_, resetWith_edx_zero, fun he => ?_, fun he hc => ?_,
    fun he hc => freshFlag21_stuck he hc 0⟩
  · cases r with
    | edx => exact absurd rfl hr
    | eax | ebx | ecx => rfl
  · exact ⟨_, resetWith_edx he, extractLsb'_high_setWidth c.resetDx⟩
  · simp [State.resetWith, freshFlag21, he]
  · simp [State.resetWith, freshFlag21, he, hc]

end Sys2Proof.Machine
end
